-- ==== Sys2Proof/Word.lean ====
section
/-! DEFINITION. The bit-vector types of the machine: bytes, 32-bit words, the 4-bit register numbers and the
16-bit immediates of a command word (spec 00_scope.md R7, 30_encoding.md R92 and R93). -/

namespace Sys2Proof

/-- A byte: an element of GF(256), a byte of LMEM, a character of a text (R11, R27). -/
abbrev Byte := BitVec 8

/-- A general register, pc, an address or a command word: 32 bits, arithmetic modulo 2^32 (R6 `XLEN`, R7). -/
abbrev Word := BitVec 32

/-- A register number: a 4-bit field of a command, naming one of x[0] to x[15] (R92). -/
abbrev Reg := BitVec 4

/-- The immediate field imm16 of a format I command (R91, R93). -/
abbrev Imm16 := BitVec 16

end Sys2Proof
end

