-- ==== Sys2Proof/Syntax.lean ====
section
/-! DEFINITION. The commands of TSSE: one constructor per row of spec/opcode_table.json (30_encoding.md R95).
The operands are the fields the row lists as used, in the order d, a, b, c, e, imm16 or NOPAD. -/

namespace Sys2Proof

/-- One command of the engine (R95). A field named `d`, `a`, `b`, `c` or `e` is the register number of that field
(R91). `nopad` is the flag bit f[0] of B64E and HENC (R94): true omits the `=` padding. -/
inductive Instr where
  /-- NOP, opcode 0x01 (R230). -/
  | nop
  /-- HALT, opcode 0x02 (R232). -/
  | halt
  /-- J label, opcode 0x03 (R233). -/
  | j (imm : Imm16)
  /-- BZ Ra, label, opcode 0x04 (R234). -/
  | bz (a : Reg) (imm : Imm16)
  /-- BNZ Ra, label, opcode 0x05 (R235). -/
  | bnz (a : Reg) (imm : Imm16)
  /-- LI Rd, imm16, opcode 0x10 (R250). -/
  | li (d : Reg) (imm : Imm16)
  /-- LUI Rd, imm16, opcode 0x11 (R251). -/
  | lui (d : Reg) (imm : Imm16)
  /-- ADDI Rd, Ra, simm16, opcode 0x12 (R252). -/
  | addi (d a : Reg) (imm : Imm16)
  /-- ADD Rd, Ra, Rb, opcode 0x13 (R253). -/
  | add (d a b : Reg)
  /-- SUB Rd, Ra, Rb, opcode 0x14 (R254). -/
  | sub (d a b : Reg)
  /-- LDB Rd, simm16(Ra), opcode 0x20 (R256). -/
  | ldb (d a : Reg) (imm : Imm16)
  /-- STB Rd, simm16(Ra), opcode 0x21 (R257): d names the data register. -/
  | stb (d a : Reg) (imm : Imm16)
  /-- GADD Rd, Ra, Rb, opcode 0x30 (R126). -/
  | gadd (d a b : Reg)
  /-- GMUL Rd, Ra, Rb, opcode 0x31 (R127). -/
  | gmul (d a b : Reg)
  /-- GDIV Rd, Ra, Rb, opcode 0x32 (R128). -/
  | gdiv (d a b : Reg)
  /-- GEXP Rd, Ra, opcode 0x33 (R129). -/
  | gexp (d a : Reg)
  /-- GLOG Rd, Ra, opcode 0x34 (R130). -/
  | glog (d a : Reg)
  /-- PEVAL Rd, Ra, Rb, Rc, opcode 0x40 (R200). -/
  | peval (d a b c : Reg)
  /-- LAGR Rd, Ra, Rb, Rc, Re, opcode 0x41 (R213). -/
  | lagr (d a b c e : Reg)
  /-- LBASIS Rd, Ra, Rc, opcode 0x42 (R214). -/
  | lbasis (d a c : Reg)
  /-- GDOT Rd, Ra, Rb, Rc, Re, opcode 0x43 (R215). -/
  | gdot (d a b c e : Reg)
  /-- HPACK Rd, Ra, Rb, Rc, opcode 0x50 (R152). -/
  | hpack (d a b c : Reg)
  /-- HUNPACK Rd, Ra, Rb, opcode 0x51 (R155): d and b must differ (R98). -/
  | hunpack (d a b : Reg)
  /-- B64E or B64E.NOPAD Rd, Ra, Rb, Rc, opcode 0x52 (R165). -/
  | b64e (d a b c : Reg) (nopad : Bool)
  /-- B64D Rd, Ra, Rb, Rc, opcode 0x53 (R169). -/
  | b64d (d a b c : Reg)
  /-- HENC or HENC.NOPAD Rd, Ra, Rb, Rc, opcode 0x54 (R176). -/
  | henc (d a b c : Reg) (nopad : Bool)
  /-- HDEC Rd, Ra, Rb, Rc, opcode 0x55 (R180). -/
  | hdec (d a b c : Reg)
  deriving DecidableEq, Repr

end Sys2Proof
end

