-- ==== Sys2Proof/WellFormed.lean ====
section
/-! DEFINITION. Which terms of `Instr` are commands. The field widths are in the types, so the one check left is the
extra constraint of HUNPACK (30_encoding.md R96 and R98). -/

namespace Sys2Proof

/-- Why a term of `Instr` is no command of the machine. -/
inductive FormError where
  /-- HUNPACK with d = b: it writes two registers, and the two must differ (R22, R98). -/
  | hunpackSameRegister (r : Reg)
  deriving DecidableEq, Repr

/-- The checks a term fails, first failure first: R98 is the only constraint beyond the field widths (R96). -/
def Instr.formError : Instr → Option FormError
  | .hunpack d _ b => if d = b then some (.hunpackSameRegister d) else none
  | .nop => none
  | .halt => none
  | .j _ => none
  | .bz _ _ => none
  | .bnz _ _ => none
  | .li _ _ => none
  | .lui _ _ => none
  | .addi _ _ _ => none
  | .add _ _ _ => none
  | .sub _ _ _ => none
  | .ldb _ _ _ => none
  | .stb _ _ _ => none
  | .gadd _ _ _ => none
  | .gmul _ _ _ => none
  | .gdiv _ _ _ => none
  | .gexp _ _ => none
  | .glog _ _ => none
  | .peval _ _ _ _ => none
  | .lagr _ _ _ _ _ => none
  | .lbasis _ _ _ => none
  | .gdot _ _ _ _ _ => none
  | .hpack _ _ _ _ => none
  | .b64e _ _ _ _ _ => none
  | .b64d _ _ _ _ => none
  | .henc _ _ _ _ _ => none
  | .hdec _ _ _ _ => none

/-- The term is a command: it passes every check. -/
def Instr.wellFormed (i : Instr) : Bool := i.formError.isNone

end Sys2Proof
end

