-- ==== Sys2Proof/Decode.lean ====
section
/-! DEFINITION. The command words of 30_encoding.md: a decoder that is total on words and on bytes and rejects by name
(R90 to R98, R100), an encoder written from the same formats, and the mask and match table of R96. -/

namespace Sys2Proof

/-! ## Byte order of a command word (R61) -/

/-- The word whose bytes, lowest address first, are b0 to b3: little-endian (R61). -/
def wordLE (b0 b1 b2 b3 : Byte) : Word := b3 ++ b2 ++ b1 ++ b0

/-- The four bytes of a word, lowest address first (R61, R71). -/
def bytesLE (w : Word) : List Byte :=
  [w.extractLsb' 0 8, w.extractLsb' 8 8, w.extractLsb' 16 8, w.extractLsb' 24 8]

/-! ## The fields of a command word (R91) -/

/-- The opcode, bits [31:24] of every format. -/
def opcodeField (w : Word) : BitVec 8 := w.extractLsb' 24 8
/-- Field d, bits [23:20]. -/
def fieldD (w : Word) : Reg := w.extractLsb' 20 4
/-- Field a, bits [19:16]. -/
def fieldA (w : Word) : Reg := w.extractLsb' 16 4
/-- Field b, bits [15:12] of format R. -/
def fieldB (w : Word) : Reg := w.extractLsb' 12 4
/-- Field c, bits [11:8] of format R. -/
def fieldC (w : Word) : Reg := w.extractLsb' 8 4
/-- Field e, bits [7:4] of format R. -/
def fieldE (w : Word) : Reg := w.extractLsb' 4 4
/-- Field f, bits [3:0] of format R: the flag field of R94. -/
def fieldF (w : Word) : BitVec 4 := w.extractLsb' 0 4
/-- imm16, bits [15:0] of format I. -/
def fieldImm (w : Word) : Imm16 := w.extractLsb' 0 16
/-- NOPAD, the flag f[0] of B64E and HENC (R94). -/
def fieldNopad (w : Word) : Bool := w.getLsbD 0

/-! ## Decoding -/

/-- Why bytes are no command. A word rejected here raises ILLEGAL_CMD at the engine step (R97, R98, R280). -/
inductive DecodeError where
  /-- Fewer than the four bytes of a command word (R90). -/
  | truncated
  /-- An opcode that R95 does not list, 0x00 among them (R97, R99). -/
  | unassignedOpcode (op : BitVec 8)
  /-- A bit of a field that R95 does not list as used is 1 (R97). -/
  | nonzeroUnusedField (w : Word)
  /-- HUNPACK with d = b (R98). -/
  | hunpackSameRegister (r : Reg)
  deriving DecidableEq, Repr

/-- The command `i`, if every bit of `unused` is 0 in the word (R97). -/
def strict (w unused : Word) (i : Instr) : Except DecodeError Instr :=
  if w &&& unused = 0 then .ok i else .error (.nonzeroUnusedField w)

/-- The command a word is, or why it is illegal (R95 to R98). The second argument of `strict` is the mask of the bits
outside the opcode that must be 0: R96's mask without bits [31:24]. -/
def decode (w : Word) : Except DecodeError Instr :=
  match (opcodeField w).toNat with
  | 0x01 => strict w 0x00FFFFFF .nop
  | 0x02 => strict w 0x00FFFFFF .halt
  | 0x03 => strict w 0x00FF0000 (.j (fieldImm w))
  | 0x04 => strict w 0x00F00000 (.bz (fieldA w) (fieldImm w))
  | 0x05 => strict w 0x00F00000 (.bnz (fieldA w) (fieldImm w))
  | 0x10 => strict w 0x000F0000 (.li (fieldD w) (fieldImm w))
  | 0x11 => strict w 0x000F0000 (.lui (fieldD w) (fieldImm w))
  | 0x12 => strict w 0x00000000 (.addi (fieldD w) (fieldA w) (fieldImm w))
  | 0x13 => strict w 0x00000FFF (.add (fieldD w) (fieldA w) (fieldB w))
  | 0x14 => strict w 0x00000FFF (.sub (fieldD w) (fieldA w) (fieldB w))
  | 0x20 => strict w 0x00000000 (.ldb (fieldD w) (fieldA w) (fieldImm w))
  | 0x21 => strict w 0x00000000 (.stb (fieldD w) (fieldA w) (fieldImm w))
  | 0x30 => strict w 0x00000FFF (.gadd (fieldD w) (fieldA w) (fieldB w))
  | 0x31 => strict w 0x00000FFF (.gmul (fieldD w) (fieldA w) (fieldB w))
  | 0x32 => strict w 0x00000FFF (.gdiv (fieldD w) (fieldA w) (fieldB w))
  | 0x33 => strict w 0x0000FFFF (.gexp (fieldD w) (fieldA w))
  | 0x34 => strict w 0x0000FFFF (.glog (fieldD w) (fieldA w))
  | 0x40 => strict w 0x000000FF (.peval (fieldD w) (fieldA w) (fieldB w) (fieldC w))
  | 0x41 => strict w 0x0000000F (.lagr (fieldD w) (fieldA w) (fieldB w) (fieldC w) (fieldE w))
  | 0x42 => strict w 0x0000F0FF (.lbasis (fieldD w) (fieldA w) (fieldC w))
  | 0x43 => strict w 0x0000000F (.gdot (fieldD w) (fieldA w) (fieldB w) (fieldC w) (fieldE w))
  | 0x50 => strict w 0x000000FF (.hpack (fieldD w) (fieldA w) (fieldB w) (fieldC w))
  | 0x51 =>
    if fieldD w = fieldB w then .error (.hunpackSameRegister (fieldD w))
    else strict w 0x00000FFF (.hunpack (fieldD w) (fieldA w) (fieldB w))
  | 0x52 => strict w 0x000000FE (.b64e (fieldD w) (fieldA w) (fieldB w) (fieldC w) (fieldNopad w))
  | 0x53 => strict w 0x000000FF (.b64d (fieldD w) (fieldA w) (fieldB w) (fieldC w))
  | 0x54 => strict w 0x000000FE (.henc (fieldD w) (fieldA w) (fieldB w) (fieldC w) (fieldNopad w))
  | 0x55 => strict w 0x000000FF (.hdec (fieldD w) (fieldA w) (fieldB w) (fieldC w))
  | _ => .error (.unassignedOpcode (opcodeField w))

/-- The command at the head of a byte sequence and the bytes after it: every command is one word of four bytes,
little-endian (R61, R90). -/
def decodeBytes : List Byte → Except DecodeError (Instr × List Byte)
  | b0 :: b1 :: b2 :: b3 :: rest =>
    match decode (wordLE b0 b1 b2 b3) with
    | .ok i => .ok (i, rest)
    | .error e => .error e
  | _ => .error .truncated

/-! ## Encoding -/

/-- Format N: the opcode and 24 zero bits (R91). -/
def formatN (op : BitVec 8) : Word := op ++ 0#24
/-- Format I (R91). -/
def formatI (op : BitVec 8) (d a : Reg) (imm : Imm16) : Word := op ++ d ++ a ++ imm
/-- Format R (R91). -/
def formatR (op : BitVec 8) (d a b c e : Reg) (f : BitVec 4) : Word := op ++ d ++ a ++ b ++ c ++ e ++ f
/-- The flag field f with NOPAD in f[0] and 0 in f[3:1] (R94). -/
def flagF (nopad : Bool) : BitVec 4 := 0#3 ++ BitVec.ofBool nopad

/-- The opcode of a command (R95). -/
def Instr.opcode : Instr → BitVec 8
  | .nop => 0x01
  | .halt => 0x02
  | .j _ => 0x03
  | .bz _ _ => 0x04
  | .bnz _ _ => 0x05
  | .li _ _ => 0x10
  | .lui _ _ => 0x11
  | .addi _ _ _ => 0x12
  | .add _ _ _ => 0x13
  | .sub _ _ _ => 0x14
  | .ldb _ _ _ => 0x20
  | .stb _ _ _ => 0x21
  | .gadd _ _ _ => 0x30
  | .gmul _ _ _ => 0x31
  | .gdiv _ _ _ => 0x32
  | .gexp _ _ => 0x33
  | .glog _ _ => 0x34
  | .peval _ _ _ _ => 0x40
  | .lagr _ _ _ _ _ => 0x41
  | .lbasis _ _ _ => 0x42
  | .gdot _ _ _ _ _ => 0x43
  | .hpack _ _ _ _ => 0x50
  | .hunpack _ _ _ => 0x51
  | .b64e _ _ _ _ _ => 0x52
  | .b64d _ _ _ _ => 0x53
  | .henc _ _ _ _ _ => 0x54
  | .hdec _ _ _ _ => 0x55

/-- The word of a command: its fields in its format, every unused field 0 (R91, R95). -/
def encode (i : Instr) : Word :=
  match i with
  | .nop => formatN i.opcode
  | .halt => formatN i.opcode
  | .j imm => formatI i.opcode 0 0 imm
  | .bz a imm => formatI i.opcode 0 a imm
  | .bnz a imm => formatI i.opcode 0 a imm
  | .li d imm => formatI i.opcode d 0 imm
  | .lui d imm => formatI i.opcode d 0 imm
  | .addi d a imm => formatI i.opcode d a imm
  | .add d a b => formatR i.opcode d a b 0 0 0
  | .sub d a b => formatR i.opcode d a b 0 0 0
  | .ldb d a imm => formatI i.opcode d a imm
  | .stb d a imm => formatI i.opcode d a imm
  | .gadd d a b => formatR i.opcode d a b 0 0 0
  | .gmul d a b => formatR i.opcode d a b 0 0 0
  | .gdiv d a b => formatR i.opcode d a b 0 0 0
  | .gexp d a => formatR i.opcode d a 0 0 0 0
  | .glog d a => formatR i.opcode d a 0 0 0 0
  | .peval d a b c => formatR i.opcode d a b c 0 0
  | .lagr d a b c e => formatR i.opcode d a b c e 0
  | .lbasis d a c => formatR i.opcode d a 0 c 0 0
  | .gdot d a b c e => formatR i.opcode d a b c e 0
  | .hpack d a b c => formatR i.opcode d a b c 0 0
  | .hunpack d a b => formatR i.opcode d a b 0 0 0
  | .b64e d a b c nopad => formatR i.opcode d a b c 0 (flagF nopad)
  | .b64d d a b c => formatR i.opcode d a b c 0 0
  | .henc d a b c nopad => formatR i.opcode d a b c 0 (flagF nopad)
  | .hdec d a b c => formatR i.opcode d a b c 0 0

/-- The bytes of a command as LMEM holds them, lowest address first (R61). -/
def encodeBytes (i : Instr) : List Byte := bytesLE (encode i)

/-! ## The mask and match table (R96) -/

/-- A row of spec/opcode_table.json: a word is that command if `word AND mask = value` (R96). -/
structure OpRow where
  mnemonic : String
  mask : Word
  value : Word
  deriving DecidableEq, Repr

/-- The rows of opcode classes 0x0, 0x1 and 0x2: control, integer, load and store. -/
def controlRows : List OpRow :=
  [⟨"NOP", 0xFFFFFFFF, 0x01000000⟩, ⟨"HALT", 0xFFFFFFFF, 0x02000000⟩, ⟨"J", 0xFFFF0000, 0x03000000⟩,
   ⟨"BZ", 0xFFF00000, 0x04000000⟩, ⟨"BNZ", 0xFFF00000, 0x05000000⟩, ⟨"LI", 0xFF0F0000, 0x10000000⟩,
   ⟨"LUI", 0xFF0F0000, 0x11000000⟩, ⟨"ADDI", 0xFF000000, 0x12000000⟩, ⟨"ADD", 0xFF000FFF, 0x13000000⟩,
   ⟨"SUB", 0xFF000FFF, 0x14000000⟩, ⟨"LDB", 0xFF000000, 0x20000000⟩, ⟨"STB", 0xFF000000, 0x21000000⟩]

/-- The rows of opcode classes 0x3 and 0x4: field, polynomial and interpolation. -/
def fieldRows : List OpRow :=
  [⟨"GADD", 0xFF000FFF, 0x30000000⟩, ⟨"GMUL", 0xFF000FFF, 0x31000000⟩, ⟨"GDIV", 0xFF000FFF, 0x32000000⟩,
   ⟨"GEXP", 0xFF00FFFF, 0x33000000⟩, ⟨"GLOG", 0xFF00FFFF, 0x34000000⟩, ⟨"PEVAL", 0xFF0000FF, 0x40000000⟩,
   ⟨"LAGR", 0xFF00000F, 0x41000000⟩, ⟨"LBASIS", 0xFF00F0FF, 0x42000000⟩, ⟨"GDOT", 0xFF00000F, 0x43000000⟩]

/-- The rows of opcode class 0x5: codec. -/
def codecRows : List OpRow :=
  [⟨"HPACK", 0xFF0000FF, 0x50000000⟩, ⟨"HUNPACK", 0xFF000FFF, 0x51000000⟩, ⟨"B64E", 0xFF0000FE, 0x52000000⟩,
   ⟨"B64D", 0xFF0000FF, 0x53000000⟩, ⟨"HENC", 0xFF0000FE, 0x54000000⟩, ⟨"HDEC", 0xFF0000FF, 0x55000000⟩]

/-- The rows of the opcode map in its order (R95, R96). -/
def opcodeTable : List OpRow := controlRows ++ fieldRows ++ codecRows

/-- The row's pattern holds of the word (R96). -/
def OpRow.fits (r : OpRow) (w : Word) : Bool := w &&& r.mask == r.value

/-- The mnemonic of a command (R95). -/
def Instr.mnemonic : Instr → String
  | .nop => "NOP"
  | .halt => "HALT"
  | .j _ => "J"
  | .bz _ _ => "BZ"
  | .bnz _ _ => "BNZ"
  | .li _ _ => "LI"
  | .lui _ _ => "LUI"
  | .addi _ _ _ => "ADDI"
  | .add _ _ _ => "ADD"
  | .sub _ _ _ => "SUB"
  | .ldb _ _ _ => "LDB"
  | .stb _ _ _ => "STB"
  | .gadd _ _ _ => "GADD"
  | .gmul _ _ _ => "GMUL"
  | .gdiv _ _ _ => "GDIV"
  | .gexp _ _ => "GEXP"
  | .glog _ _ => "GLOG"
  | .peval _ _ _ _ => "PEVAL"
  | .lagr _ _ _ _ _ => "LAGR"
  | .lbasis _ _ _ => "LBASIS"
  | .gdot _ _ _ _ _ => "GDOT"
  | .hpack _ _ _ _ => "HPACK"
  | .hunpack _ _ _ => "HUNPACK"
  | .b64e _ _ _ _ _ => "B64E"
  | .b64d _ _ _ _ => "B64D"
  | .henc _ _ _ _ _ => "HENC"
  | .hdec _ _ _ _ => "HDEC"

/-! ## The host's probe of the decoder -/

/-- The word whose low `nbits` bits are those of `w` and whose other bits are 0. -/
def tableWord (nbits w : Nat) : Word := (BitVec.ofNat nbits w).setWidth 32

/-- The instruction the decoder reads from the bytes of the table word, laid out as LMEM holds them (R61). -/
def decodeTableWord (nbits w : Nat) : Option Instr :=
  match decodeBytes (bytesLE (tableWord nbits w)) with
  | .ok (i, _) => some i
  | .error _ => none

end Sys2Proof
end

