-- ==== Sys2Proof/Config.lean ====
section
/-! DEFINITION. The parameters of this hardware that 00_scope.md R6 gives a value, and the free values: what the spec
leaves open and every claim must hold for whatever it is (93_implementation_defined.md). The two ROM tables, which are
parameters too, stand in Sys2Proof/Machine/Tables.lean. -/

namespace Sys2Proof.Config

/-- `LMEM_SIZE`, bytes of local memory: 2^20 in this hardware (R6, R42, D8; log entry 3). -/
def lmemSize : Nat := 1048576

/-- `ID_VALUE`, what the ID register holds: 'T', 'S', 'S', version 1 (R6, R33). -/
def idValue : Word := 0x54535301

/-- The 2 MiB block of the host's address space the platform gives TSSE: open (R6, R69, I16). Nothing is known of it. -/
opaque hostBlock : Nat

/-- `TSSE_BASE`: open but for its alignment to 2 MiB (R6, R29, R69). -/
def tsseBase : Nat := hostBlock * 0x200000

/-- The byte an LMEM address holds while nothing has written it: an independent draw for each address (I5), drawn anew
each time the whole of LMEM becomes unspecified (I6). The first argument numbers those times, the second is the address
(R44, R311; log entry 1). -/
opaque unwrittenByte : Nat → Nat → Byte

/-- What the block answers where the host's read has no specified value: a read of PC, GPRk, CMDCNT or LMEM while
BUSY = 1 (R32, I7), and the bus lanes a narrow read does not touch (R71). The argument numbers the draws
(log entries 2 and 6). -/
opaque freeWord : Nat → Word

/-- The content of LOG[0]: unspecified, and no command reads it (R122, I2; log entry 5). -/
opaque logOfZero : Byte

end Sys2Proof.Config
end

