-- ==== Sys2Proof/Machine/State.lean ====
section
/-! DEFINITION. The state of one TSSE instance (10_state.md R20), as plain data, and the state after power-on reset
(10_state.md R44). Beside the spec's state it holds four fields of the model's own: the order in which engine and host
step, what the slave port last answered, and two counters that number the free values. -/

namespace Sys2Proof.Machine

/-- The error codes of 60_exceptions.md R274. No other value of ERRCODE is ever reported (I12). -/
inductive ErrCode where
  /-- 0x00: no error. -/
  | none
  /-- 0x01: an unassigned opcode, a non-zero unused field, or HUNPACK with d = b. -/
  | illegalCmd
  /-- 0x02: pc mod 4 is not 0 at a fetch. -/
  | fetchMisaligned
  /-- 0x03: pc is above LMEM_SIZE - 4 at a fetch. -/
  | fetchRange
  /-- 0x04: a data range is not inside LMEM. -/
  | memRange
  /-- 0x05: GDIV with divisor byte 0. -/
  | divZero
  /-- 0x06: GLOG of byte 0. -/
  | logZero
  /-- 0x07: a count is not in 1 to 255. -/
  | badCount
  /-- 0x08: a zero or duplicate share index. -/
  | badIndex
  /-- 0x09: an identifier longer than 16, or a share shorter than 20. -/
  | badLength
  /-- 0x0A: a hash code above 2. -/
  | badHash
  /-- 0x0B: an identifier byte outside IDSET. -/
  | badIdent
  /-- 0x0C: a Base64 input that R163 rejects. -/
  | badBase64
  /-- 0x0D: a text that R172 rejects. -/
  | badHuman
  /-- 0x0E: an abort request was taken. -/
  | aborted
  deriving DecidableEq, Repr

/-- The width of a host access: 1, 2 or 4 bytes (20_memory.md R70). -/
inductive Width where
  | byte
  | half
  | word
  deriving DecidableEq, Repr

/-- What a host access does at its offset (R70). A write carries the 32 bits of write data (R310). -/
inductive BusOp where
  | read
  | write (data : Word)
  deriving DecidableEq, Repr

/-- One host bus access: a 21-bit block offset, a width, and a read or a write (R70, 70_reset_and_hazards.md R310). -/
structure Access where
  offset : BitVec 21
  width : Width
  op : BusOp
  deriving DecidableEq, Repr

/-- What the slave port answered to an access (R70, R73, R310). -/
inductive Response where
  /-- No access has been answered since the reset. -/
  | idle
  /-- The normal response to a read, with the 32 bits of read data. -/
  | data (value : Word)
  /-- The normal response to a write, dropped or ignored writes among them (R30, R73). -/
  | written
  /-- The bus error response: no data, no effect (R30, R73). -/
  | busError
  deriving DecidableEq, Repr

/-- One turn of one agent: an engine step, a host access, the reset input, or power-on (R12, R310, R311). -/
inductive Turn where
  | engine
  | host (access : Access)
  | reset
  | powerOn
  deriving DecidableEq, Repr

/-- LMEM: the bytes that have been written, by rising address. An address that is not listed holds no value of the
model's choosing (R44, I5). -/
abbrev Memory := List Host.Cell

/-- The state of the machine: R20's list, then the four fields of the model's own. -/
structure State where
  /-- x[0] to x[15] (R21). -/
  regs : Vector Word 16
  /-- The program counter (R23). -/
  pc : Word
  /-- BUSY: the engine is executing (R26). -/
  busy : Bool
  /-- ABORTREQ: the hidden abort request (R45). -/
  abortReq : Bool
  /-- DONE (R35). -/
  done : Bool
  /-- ERR (R35). -/
  err : Bool
  /-- HACC: a host access was dropped (R32, R35). -/
  hacc : Bool
  /-- ERRCODE (R35). -/
  errCode : ErrCode
  /-- IRQEN bit 1, DONE_IE (R37). -/
  doneIE : Bool
  /-- IRQEN bit 2, ERR_IE (R37). -/
  errIE : Bool
  /-- IRQEN bit 3, HACC_IE (R37). -/
  haccIE : Bool
  /-- ERRPC (R39). -/
  errPC : Word
  /-- ERRINFO (R40). -/
  errInfo : Word
  /-- CMDCNT (R41). -/
  cmdCnt : Word
  /-- LMEM (R27). -/
  lmem : Memory
  /-- The model's own: how often the whole LMEM became unspecified (R311; log entry 1). -/
  lmemDraw : Nat
  /-- The model's own: how many free words host reads have been given (R32; log entry 2). -/
  freeDraws : Nat
  /-- The model's own: the agents' coming turns, in their order (R12; log entry 7). -/
  turns : List Turn
  /-- The model's own: what the slave port last answered (R310; log entry 9). -/
  response : Response
  deriving DecidableEq, Repr

/-- Why the machine stops with a fault: never. Each error the spec describes is an architected next state (R276, R292),
a bad host access is an answered one (R73), and no command and no turn is without an effect, so this type has no
constructor. -/
inductive Fault where
  deriving DecidableEq, Repr

/-- Why a step has no meaning. -/
inductive Refusal where
  /-- Raised by an arm of `exec` whose command has no meaning yet. Safe: the machine stops. No arm is left so. -/
  | notModelled (mnemonic : String)
  deriving DecidableEq, Repr

/-- How a step, and the meaning of a command, ends. -/
abbrev Result := Host.Outcome State Fault Refusal

/-- The state after power-on reset (R44, R311, R313): every register 0, the engine idle, LMEM unspecified. The four
fields of the model's own start empty (log entries 1, 2, 7 and 9). -/
def State.reset : State where
  regs := Vector.replicate 16 0
  pc := 0
  busy := false
  abortReq := false
  done := false
  err := false
  hacc := false
  errCode := .none
  doneIE := false
  errIE := false
  haccIE := false
  errPC := 0
  errInfo := 0
  cmdCnt := 0
  lmem := []
  lmemDraw := 0
  freeDraws := 0
  turns := []
  response := .idle

end Sys2Proof.Machine
end

