-- ==== Sys2Proof/Machine/Ops.lean ====
section
/-! DEFINITION. The shared operations: LMEM, the general registers, completing a command, the error entry of
60_exceptions.md R276, and the stop, start, abort and reset beside it. Every meaning and every host access is written
over these. -/

namespace Sys2Proof.Machine

/-! ## LMEM (10_state.md R27; 00_scope.md R8) -/

/-- What the list holds at an address. An unlisted address holds nothing: the spec gives it no value (R44, I5). -/
def Memory.lookup : Memory → Nat → Option Byte
  | [], _ => none
  | (x, v) :: m, a => if a = x then some v else Memory.lookup m a

/-- Store one byte, keeping the addresses strictly rising. -/
def Memory.write : Memory → Nat → Byte → Memory
  | [], a, b => [(a, b)]
  | (x, v) :: m, a, b =>
    if a < x then (a, b) :: (x, v) :: m
    else if a = x then (a, b) :: m
    else (x, v) :: Memory.write m a b

/-- Store a byte sequence from an address on: `MemWrite` of R8. -/
def Memory.writeBytes : Memory → Nat → List Byte → Memory
  | m, _, [] => m
  | m, a, b :: bs => Memory.writeBytes (Memory.write m a b) (a + 1) bs

/-- The canonical form: addresses strictly rising. No entry can equal what an unlisted address reads as, because an
unlisted address holds no value. -/
abbrev Memory.wf (m : Memory) : Prop := m.Pairwise (fun x y => x.1 < y.1)

/-- Every listed address exists: it is below `LMEM_SIZE` (R27, R68). -/
abbrev Memory.inside (m : Memory) : Prop := ∀ c ∈ m, c.1 < Config.lmemSize

/-- LMEM[a] as an engine or host access reads it: the byte last written, or the free value of a byte nothing has written
(R67, R311, I5). -/
def byteAt (s : State) (a : Nat) : Byte := (s.lmem.lookup a).getD (Config.unwrittenByte s.lmemDraw a)

/-- `MemRead(a, n)` (R8). -/
def readBytes (s : State) (a n : Nat) : List Byte := (List.range' a n).map (byteAt s)

/-- `MemWrite(a, len bs, bs)` (R8). -/
def writeBytes (s : State) (a : Nat) (bs : List Byte) : State := { s with lmem := s.lmem.writeBytes a bs }

/-- `RangeOK(addr, n)`, on unbounded integers (R8, R64). -/
def rangeOK (addr : Word) (n : Nat) : Bool :=
  n == 0 || (decide (addr.toNat < Config.lmemSize) && decide (n ≤ Config.lmemSize - addr.toNat))

/-- The single-byte check of LDB, STB and a strided element: the address is below `LMEM_SIZE` (R64, R65). -/
def byteOK (addr : Word) : Bool := decide (addr.toNat < Config.lmemSize)

/-- The word at an address, little-endian (R61, R71). -/
def wordAt (s : State) (a : Nat) : Word :=
  wordLE (byteAt s a) (byteAt s (a + 1)) (byteAt s (a + 2)) (byteAt s (a + 3))

/-! ## General registers (R21): none is hard-wired, none has an alias -/

/-- x[r]. -/
def readReg (s : State) (r : Reg) : Word := s.regs[r.toNat]'r.isLt

/-- x[r] <- v. -/
def setReg (s : State) (r : Reg) (v : Word) : State := { s with regs := s.regs.set r.toNat v r.isLt }

/-! ## Completing a command (R23, R41, R280) -/

/-- The command is complete and `next` is the address of the next one: pc moves and CMDCNT counts, modulo 2^32. -/
def finish (next : Word) (s : State) : State := { s with pc := next, cmdCnt := s.cmdCnt + 1 }

/-- A command that is no taken branch completes: pc <- pc + 4 (R23). -/
def complete (s : State) : Result := .next (finish (s.pc + 4) s)

/-- HALT's stop (R282): BUSY <- 0, DONE <- 1, ABORTREQ <- 0. -/
def stop (s : State) : State := { s with busy := false, done := true, abortReq := false }

/-! ## Errors (R270 to R283) -/

/-- The value of STATUS.ERRCODE (R274). -/
def errCodeByte : ErrCode → Byte
  | .none => 0x00
  | .illegalCmd => 0x01
  | .fetchMisaligned => 0x02
  | .fetchRange => 0x03
  | .memRange => 0x04
  | .divZero => 0x05
  | .logZero => 0x06
  | .badCount => 0x07
  | .badIndex => 0x08
  | .badLength => 0x09
  | .badHash => 0x0A
  | .badIdent => 0x0B
  | .badBase64 => 0x0C
  | .badHuman => 0x0D
  | .aborted => 0x0E

/-- Taking an error: `raise E(info)` of R276, as one step. pc, the registers, LMEM, CMDCNT and DONE keep their values,
and nothing vectors (R277). -/
def takeError (e : ErrCode) (info : Word) (s : State) : State :=
  { s with busy := false, err := true, errCode := e, errPC := s.pc, errInfo := info, abortReq := false }

/-- A command ends with an error (R276). -/
def raise (e : ErrCode) (info : Word) (s : State) : Result := .next (takeError e info s)

/-- Taking a pending abort at a command boundary (R292): the error entry with code ABORTED and information word 0. -/
def takeAbort (s : State) : State := takeError .aborted 0 s

/-- The return from a stop, error or abort: START while idle (R290, R291). Execution goes on at pc, which after an error
still addresses the command that raised it. pc, the registers, LMEM, IRQEN and HACC keep their values. -/
def start (s : State) : State :=
  { s with done := false, err := false, errCode := .none, errPC := 0, errInfo := 0, cmdCnt := 0, abortReq := false,
           busy := true }

/-! ## Reset (70_reset_and_hazards.md R311 to R313) -/

/-- The reset input while the block is powered: every register takes its value of R44. LMEM keeps its content if the
engine was idle, and becomes unspecified as a whole if it was running (R311, I6). The counters of free values and the
coming turns are the model's own and go on (log entry 12). -/
def resetInput (s : State) : State :=
  { State.reset with
    lmem := if s.busy then [] else s.lmem
    lmemDraw := if s.busy then s.lmemDraw + 1 else s.lmemDraw
    freeDraws := s.freeDraws
    turns := s.turns }

/-- Power-on: as the reset input, and the whole LMEM is unspecified (R44, R311, I5). -/
def powerOn (s : State) : State :=
  { State.reset with lmemDraw := s.lmemDraw + 1, freeDraws := s.freeDraws, turns := s.turns }

end Sys2Proof.Machine
end

