-- ==== Sys2Proof/Machine/Flags.lean ====
section
/-! DEFINITION. The engine has no flags and no condition codes (10_state.md R25): no command computes one. What stands
here are the host-visible status and enable words (R35 to R37), the write-one-to-clear of STATUS, and the interrupt
output (60_exceptions.md R285). -/

namespace Sys2Proof.Machine

/-- STATUS as the host reads it (R35): ERRCODE in [15:8], HACC, ERR, DONE and BUSY in [3:0], reserved bits 0. -/
def statusWord (s : State) : Word :=
  0#16 ++ errCodeByte s.errCode ++ 0#4 ++ BitVec.ofBool s.hacc ++ BitVec.ofBool s.err ++ BitVec.ofBool s.done ++
    BitVec.ofBool s.busy

/-- A host write to STATUS (R36): 1 in bit 1 clears DONE, 1 in bit 2 clears ERR and ERRCODE, 1 in bit 3 clears HACC. -/
def writeStatus (v : Word) (s : State) : State :=
  { s with
    done := s.done && !v.getLsbD 1
    err := s.err && !v.getLsbD 2
    errCode := if v.getLsbD 2 then .none else s.errCode
    hacc := s.hacc && !v.getLsbD 3 }

/-- IRQEN as the host reads it (R37): bits 3, 2 and 1; reserved bits 0. -/
def irqenWord (s : State) : Word :=
  0#28 ++ BitVec.ofBool s.haccIE ++ BitVec.ofBool s.errIE ++ BitVec.ofBool s.doneIE ++ 0#1

/-- A host write to IRQEN (R37): reserved bits are ignored. -/
def writeIrqen (v : Word) (s : State) : State :=
  { s with doneIE := v.getLsbD 1, errIE := v.getLsbD 2, haccIE := v.getLsbD 3 }

/-- The interrupt output, level high (R285, R310). -/
def irq (s : State) : Bool := (s.done && s.doneIE) || (s.err && s.errIE) || (s.hacc && s.haccIE)

end Sys2Proof.Machine
end

