-- ==== Sys2Proof/Machine/Operands.lean ====
section
/-! DEFINITION. The operand forms of the commands: a field operand and result (40_field.md R120), the three readings of
imm16 (30_encoding.md R93), the branch target (44_control.md R231), base plus displacement (45_integer_loadstore.md
R258), strided elements (20_memory.md R65), counts (43_lagrange.md R212) and the packed fields word (41_codec.md R152).
-/

namespace Sys2Proof.Machine

/-- `zext_32` of a byte (R7, R120). -/
def zextByte (b : Byte) : Word := b.setWidth 32

/-- A field operand: bits [7:0] of a register; bits [31:8] are ignored (R120). -/
def fieldOperand (s : State) (r : Reg) : Byte := (readReg s r).setWidth 8

/-- A field result: `zext_32`, so that bits [31:8] of the destination become 0 (R120). -/
def setFieldReg (s : State) (r : Reg) (b : Byte) : State := setReg s r (zextByte b)

/-- A number as a 32-bit information word, length or count (R275; log entry 19). -/
def natWord (n : Nat) : Word := BitVec.ofNat 32 n

/-- `zext_32(imm16)`: LI and LUI (R93). -/
def zextImm (imm : Imm16) : Word := imm.setWidth 32

/-- `sext_32(imm16)`: ADDI, LDB and STB (R93). -/
def sextImm (imm : Imm16) : Word := imm.signExtend 32

/-- `(pc + sext_32(imm16) * 4) mod 2^32`: the target of J, BZ and BNZ (R93, R231). -/
def branchTarget (pc : Word) (imm : Imm16) : Word := pc + sextImm imm * 4

/-- `ea = (x[a] + sext_32(imm16)) mod 2^32`, the one addressing mode of LDB and STB (R258). -/
def effectiveAddress (s : State) (a : Reg) (imm : Imm16) : Word := readReg s a + sextImm imm

/-- The element addresses `(base + i * stride) mod 2^32` for i in 0..n-1 (R65). -/
def stridedAddrs (base stride : Word) (n : Nat) : List Word :=
  (List.range n).map (fun i => base + natWord i * stride)

/-- The first element address that is not in LMEM (R65). -/
def firstOutside (addrs : List Word) : Option Word := addrs.find? (fun a => !byteOK a)

/-- The bytes at the element addresses, in their order (R65). -/
def gather (s : State) (addrs : List Word) : List Byte := addrs.map (fun a => byteAt s a.toNat)

/-- A count operand is in 1 to 255 (R200, R212). -/
def countOK (n : Word) : Bool := decide (1 ≤ n.toNat) && decide (n.toNat ≤ 255)

/-- Bits [7:0] of the fields word: the hash code (R152). -/
def fieldsHash (fl : Word) : Byte := fl.extractLsb' 0 8
/-- Bits [15:8] of the fields word: the threshold (R152). -/
def fieldsThreshold (fl : Word) : Byte := fl.extractLsb' 8 8
/-- Bits [23:16] of the fields word: the low byte of the payload length (R152). -/
def fieldsLenLow (fl : Word) : Byte := fl.extractLsb' 16 8
/-- Bits [31:24] of the fields word: the high byte of the payload length (R152). -/
def fieldsLenHigh (fl : Word) : Byte := fl.extractLsb' 24 8

end Sys2Proof.Machine
end

