-- ==== Sys2Proof/Machine/Bus.lean ====
section
/-! DEFINITION. The host's side of the block: the register map and the LMEM window (10_state.md R29 to R43; 20_memory.md
R70 to R73), START and ABORT (R34; 60_exceptions.md R290, R292), and what is dropped or free while the engine runs
(R32). -/

namespace Sys2Proof.Machine

/-- What an allowed access reaches (R29). -/
inductive Target where
  | id
  | ctrl
  | status
  | irqen
  | pc
  | errPC
  | errInfo
  | cmdCnt
  | lmemSz
  | gpr (r : Reg)
  | lmem (addr : Nat)
  deriving DecidableEq, Repr

/-- The number of bytes of a width (R70). -/
def widthBytes : Width → Nat
  | .byte => 1
  | .half => 2
  | .word => 4

/-- The register at an offset below 0x100000, or none where the offset is reserved (R29). -/
def registerAt (off : Nat) : Option Target :=
  if off = 0x000 then some .id
  else if off = 0x004 then some .ctrl
  else if off = 0x008 then some .status
  else if off = 0x00C then some .irqen
  else if off = 0x010 then some .pc
  else if off = 0x014 then some .errPC
  else if off = 0x018 then some .errInfo
  else if off = 0x01C then some .cmdCnt
  else if off = 0x020 then some .lmemSz
  else if 0x040 ≤ off ∧ off < 0x080 ∧ off % 4 = 0 then some (.gpr (BitVec.ofNat 4 ((off - 0x040) / 4)))
  else none

/-- The first offset of the LMEM window (R29, R71). -/
def windowBase : Nat := 0x100000

/-- What an access reaches; none is a bus error (R30, R73): a narrow or misaligned register access, a reserved offset, or
a window access that is misaligned or at or beyond `LMEM_SIZE`. -/
def busTarget (off : Nat) (w : Width) : Option Target :=
  if off < windowBase then
    if w = .word ∧ off % 4 = 0 then registerAt off else none
  else if off - windowBase < Config.lmemSize ∧ off % widthBytes w = 0 then some (.lmem (off - windowBase))
  else none

/-- The read of this target has no specified value while BUSY = 1 (R32). -/
def readsFreeWhenBusy : Target → Bool
  | .pc => true
  | .cmdCnt => true
  | .gpr _ => true
  | .lmem _ => true
  | .id => false
  | .ctrl => false
  | .status => false
  | .irqen => false
  | .errPC => false
  | .errInfo => false
  | .lmemSz => false

/-- A write to this target is dropped while BUSY = 1 (R32). -/
def dropsWhenBusy : Target → Bool
  | .pc => true
  | .gpr _ => true
  | .lmem _ => true
  | .cmdCnt => false
  | .id => false
  | .ctrl => false
  | .status => false
  | .irqen => false
  | .errPC => false
  | .errInfo => false
  | .lmemSz => false

/-- The bus word of a window read: byte lane k is LMEM[a+k] for k below the width (R71), and the lanes above the width,
which no rule gives, are those of `other`. -/
def windowLanes (s : State) (a : Nat) (w : Width) (other : Word) : Word :=
  match w with
  | .byte => other.extractLsb' 8 24 ++ byteAt s a
  | .half => other.extractLsb' 16 16 ++ byteAt s (a + 1) ++ byteAt s a
  | .word => wordAt s a

/-- The host-visible word of a target while its value is specified (R31, R33 to R43, R71). -/
def readTarget (s : State) (w : Width) (other : Word) : Target → Word
  | .id => Config.idValue
  | .ctrl => 0
  | .status => statusWord s
  | .irqen => irqenWord s
  | .pc => s.pc
  | .errPC => s.errPC
  | .errInfo => s.errInfo
  | .cmdCnt => s.cmdCnt
  | .lmemSz => natWord Config.lmemSize
  | .gpr r => readReg s r
  | .lmem a => windowLanes s a w other

/-- The port answers. -/
def respond (r : Response) (s : State) : State := { s with response := r }

/-- The port answers a read. The free word of this read is used up (R32; log entries 2 and 6); nothing else changes
(R31). -/
def hostRead (t : Target) (w : Width) (s : State) : State :=
  let free := Config.freeWord s.freeDraws
  let v := if s.busy && readsFreeWhenBusy t then free else readTarget s w free t
  respond (.data v) { s with freeDraws := s.freeDraws + 1 }

/-- The host access is dropped because BUSY = 1, and HACC records it (R32). -/
def dropAccess (s : State) : State := { s with hacc := true }

/-- A write to CTRL (R34): bit 0 is START, bit 1 is ABORT. -/
def writeCtrl (v : Word) (s : State) : State :=
  if s.busy then { s with hacc := s.hacc || v.getLsbD 0, abortReq := s.abortReq || v.getLsbD 1 }
  else if v.getLsbD 0 then start s
  else s

/-- The effect of an allowed write that is not dropped. Writes to a read-only register are ignored (R30). -/
def writeTarget (t : Target) (w : Width) (v : Word) (s : State) : State :=
  match t with
  | .ctrl => writeCtrl v s
  | .status => writeStatus v s
  | .irqen => writeIrqen v s
  | .pc => { s with pc := v }
  | .gpr r => setReg s r v
  | .lmem a => writeBytes s a ((bytesLE v).take (widthBytes w))
  | .id => s
  | .errPC => s
  | .errInfo => s
  | .cmdCnt => s
  | .lmemSz => s

/-- The port answers a write, with the normal response even where the write is dropped (R73). -/
def hostWrite (t : Target) (w : Width) (v : Word) (s : State) : State :=
  respond .written (if s.busy && dropsWhenBusy t then dropAccess s else writeTarget t w v s)

/-- One host access, atomic (R70): a bus error changes no state (R73), HACC neither (log entry 15). -/
def hostAccess (acc : Access) (s : State) : State :=
  match busTarget acc.offset.toNat acc.width with
  | none => respond .busError s
  | some t =>
    match acc.op with
    | .read => hostRead t acc.width s
    | .write v => hostWrite t acc.width v s

/-- The host bus address of an access: TSSE_BASE plus the block offset (R29, R69; log entry 13). -/
def hostAddress (acc : Access) : Nat := Config.tsseBase + acc.offset.toNat

end Sys2Proof.Machine
end

