-- ==== Sys2Proof/Machine/Base64.lean ====
section
/-! DEFINITION. URL-safe Base64 (41_codec.md R160 to R164). The alphabet is the spec's general knowledge (I3; log entry
18). -/

namespace Sys2Proof.Machine

/-- The alphabet byte of a 6-bit value (R160). -/
def b64Char (v : BitVec 6) : Byte :=
  let n := v.toNat
  BitVec.ofNat 8 <|
    if n < 26 then 0x41 + n
    else if n < 52 then 0x61 + (n - 26)
    else if n < 62 then 0x30 + (n - 52)
    else if n = 62 then 0x2D
    else 0x5F

/-- The 6-bit value of an alphabet byte; none for a byte outside ALPHABET (R160). -/
def b64Val (ch : Byte) : Option (BitVec 6) :=
  let n := ch.toNat
  if 0x41 ≤ n ∧ n ≤ 0x5A then some (BitVec.ofNat 6 (n - 0x41))
  else if 0x61 ≤ n ∧ n ≤ 0x7A then some (BitVec.ofNat 6 (n - 0x61 + 26))
  else if 0x30 ≤ n ∧ n ≤ 0x39 then some (BitVec.ofNat 6 (n - 0x30 + 52))
  else if n = 0x2D then some 62
  else if n = 0x5F then some 63
  else none

/-- The byte is in ALPHABET (R160). -/
def isB64 (ch : Byte) : Bool := (b64Val ch).isSome

/-- The pad character `=` (R160). -/
def padChar : Byte := 0x3D

/-- The four alphabet bytes of 24 bits (R161). -/
def b64Quad (v : BitVec 24) : List Byte :=
  [b64Char (v.extractLsb' 18 6), b64Char (v.extractLsb' 12 6), b64Char (v.extractLsb' 6 6),
   b64Char (v.extractLsb' 0 6)]

/-- `b64enc(s, pad)` (R161), three bytes at a time; the last one or two bytes are filled with zero bytes. -/
def b64enc (pad : Bool) : List Byte → List Byte
  | [] => []
  | [x] => (b64Quad (x ++ 0x00#8 ++ 0x00#8)).take 2 ++ (if pad then [padChar, padChar] else [])
  | [x, y] => (b64Quad (x ++ y ++ 0x00#8)).take 3 ++ (if pad then [padChar] else [])
  | x :: y :: z :: rest => b64Quad (x ++ y ++ z) ++ b64enc pad rest

/-- `b64len(n, pad)`, the length of the encoding of n bytes (R162). -/
def b64len (n : Nat) (pad : Bool) : Nat :=
  4 * (n / 3) + (if n % 3 = 0 then 0 else if pad then 4 else n % 3 + 1)

/-- The three bytes of 24 bits (R163). -/
def b64Triple (v : BitVec 24) : List Byte := [v.extractLsb' 16 8, v.extractLsb' 8 8, v.extractLsb' 0 8]

/-- The bytes of a sequence of 6-bit values (R163, the lines that build `out`): four values give three bytes, and the
last two or three values, filled with zero bits, give one or two. -/
def b64Bytes : List (BitVec 6) → List Byte
  | a :: b :: c :: d :: rest => b64Triple (a ++ b ++ c ++ d) ++ b64Bytes rest
  | [a, b, c] => (b64Triple (a ++ b ++ c ++ 0#6)).take 2
  | [a, b] => (b64Triple (a ++ b ++ 0#12)).take 1
  | [_] => []
  | [] => []

/-- The number of trailing `=` (R163, the first line). -/
def trailingPads (s : List Byte) : Nat := (s.reverse.takeWhile (· == padChar)).length

/-- `b64dec(s)`: the decoded bytes, or the offset `Err(k)`, its checks in R163's order. -/
def b64dec (s : List Byte) : Except Nat (List Byte) :=
  let n := s.length
  let p := trailingPads s
  let m := n - p
  let body := s.take m
  let vals := body.filterMap b64Val
  let last := vals.getLastD 0
  match body.findIdx? (fun ch => !isB64 ch) with
  | some k => .error k
  | none =>
    if 2 < p then .error (m + 2)
    else if m % 4 = 1 then .error n
    else if 0 < p ∧ (m + p) % 4 ≠ 0 then .error n
    else if m % 4 = 2 ∧ last &&& 0x0F ≠ 0 then .error (m - 1)
    else if m % 4 = 3 ∧ last &&& 0x03 ≠ 0 then .error (m - 1)
    else .ok (b64Bytes vals)

end Sys2Proof.Machine
end

