-- ==== Sys2Proof/Machine/Share.lean ====
section
/-! DEFINITION. The share header and the human share text as byte sequences (41_codec.md R150 to R154, R170 to R172).
The meanings of HPACK, HUNPACK, HENC and HDEC call these. -/

namespace Sys2Proof.Machine

/-- The byte is in IDSET, the byte set of `[A-Za-z0-9._-]` (R153). -/
def inIdset (b : Byte) : Bool :=
  let n := b.toNat
  (0x41 ≤ n && n ≤ 0x5A) || (0x61 ≤ n && n ≤ 0x7A) || (0x30 ≤ n && n ≤ 0x39) || n == 0x2E || n == 0x5F || n == 0x2D

/-- The offset of the first byte outside IDSET (R152, R176). -/
def firstBadIdent (id : List Byte) : Option Nat := id.findIdx? (fun b => !inIdset b)

/-- The length of the identifier of a header: 16 less the trailing 0x00 bytes among bytes 0 to 15 (R154). -/
def identLength (h : List Byte) : Nat := 16 - ((h.take 16).reverse.takeWhile (· == 0x00)).length

/-- The hash codes the engine accepts: 0, 1 and 2 (R151). -/
def hashOK (code : Byte) : Bool := decide (code.toNat ≤ 2)

/-- The 20 header bytes: the identifier, null-padded to 16, the hash code, the threshold, the payload length high byte
first (R150, R152). -/
def packHeader (id : List Byte) (hash threshold lenHigh lenLow : Byte) : List Byte :=
  id ++ List.replicate (16 - id.length) 0x00 ++ [hash, threshold, lenHigh, lenLow]

/-- The decimal digit d in ASCII (R170). -/
def digitChar (d : Nat) : Byte := BitVec.ofNat 8 (0x30 + d)

/-- `dec(t)`: the shortest decimal rendering of a byte (R170). -/
def decimal (t : Byte) : List Byte :=
  let n := t.toNat
  if n < 10 then [digitChar n]
  else if n < 100 then [digitChar (n / 10), digitChar (n % 10)]
  else [digitChar (n / 100), digitChar (n / 10 % 10), digitChar (n % 10)]

/-- The byte is a decimal digit (R172). -/
def isDigit (b : Byte) : Bool := 0x30 ≤ b.toNat && b.toNat ≤ 0x39

/-- `~` (R171). -/
def tilde : Byte := 0x7E

/-- "tss~v1~" (R171, R172). -/
def humanPrefix : List Byte := [0x74, 0x73, 0x73, 0x7E, 0x76, 0x31, 0x7E]

/-- The human text of a binary share whose identifier is its first k bytes (R171, R176). -/
def humanText (s : List Byte) (k : Nat) (pad : Bool) : List Byte :=
  humanPrefix ++ s.take k ++ [tilde] ++ decimal (s.getD 17 0) ++ [tilde] ++ b64enc pad s

/-- The offset of the first position of `pre` at which s ends or differs (R172, the first loop). -/
def prefixError (pre s : List Byte) : Option Nat := (List.range pre.length).find? (fun k => s[k]? ≠ pre[k]?)

/-- How many bytes from offset q on are of the class in a row: the passes of a `while` loop of R172. -/
def runLength (cls : Byte → Bool) (s : List Byte) (q : Nat) : Nat := ((s.drop q).takeWhile cls).length

/-- `hparse(s)`: the offset of the Base64 part, or `Err(k)`, the pattern's fields in their order (R172). -/
def hparse (s : List Byte) : Except Nat Nat :=
  match prefixError humanPrefix s with
  | some k => .error k
  | none =>
    let ids := runLength inIdset s 7
    if 16 < ids then .error (7 + 16)
    else
      let q1 := 7 + ids
      if s[q1]? ≠ some tilde then .error q1
      else
        let q2 := q1 + 1
        let digits := runLength isDigit s q2
        if 3 < digits then .error (q2 + 3)
        else
          let q3 := q2 + digits
          if digits = 0 then .error q3
          else if s[q3]? ≠ some tilde then .error q3
          else
            let q0 := q3 + 1
            let chars := runLength isB64 s q0
            let q4 := q0 + chars
            if chars = 0 then .error q4
            else
              let pads := runLength (· == padChar) s q4
              if 2 < pads then .error (q4 + 2)
              else if q4 + pads ≠ s.length then .error (q4 + pads)
              else .ok q0

end Sys2Proof.Machine
end

