-- ==== Sys2Proof/Machine/Codec.lean ====
section
/-! DEFINITION. The share codec commands HPACK, HUNPACK, B64E, B64D, HENC and HDEC (41_codec.md R152, R155, R165, R169,
R176, R180), each with its checks in the order its rule lists them. -/

namespace Sys2Proof.Machine

/-- HPACK (R152). -/
def execHpack (d a b c : Reg) (s : State) : Result :=
  let dst := readReg s d
  let ida := readReg s a
  let idl := readReg s b
  let fl := readReg s c
  let id := readBytes s ida.toNat idl.toNat
  if 16 < idl.toNat then raise .badLength idl s
  else if !hashOK (fieldsHash fl) then raise .badHash (zextByte (fieldsHash fl)) s
  else if !rangeOK ida idl.toNat then raise .memRange ida s
  else if !rangeOK dst 20 then raise .memRange dst s
  else
    match firstBadIdent id with
    | some k => raise .badIdent (natWord k) s
    | none =>
      complete (writeBytes s dst.toNat
        (packHeader id (fieldsHash fl) (fieldsThreshold fl) (fieldsLenHigh fl) (fieldsLenLow fl)))

/-- HUNPACK (R155). With d = b it is no command: ILLEGAL_CMD, carrying the word (R98; the decoder never gives such a
term; log entry 11). -/
def execHunpack (d a b : Reg) (s : State) : Result :=
  let src := readReg s a
  let h := readBytes s src.toNat 20
  if d = b then raise .illegalCmd (encode (.hunpack d a b)) s
  else if !rangeOK src 20 then raise .memRange src s
  else if !hashOK (h.getD 16 0) then raise .badHash (zextByte (h.getD 16 0)) s
  else
    let fields : Word := h.getD 18 0 ++ h.getD 19 0 ++ h.getD 17 0 ++ h.getD 16 0
    complete (setReg (setReg s d fields) b (natWord (identLength h)))

/-- B64E (R165). -/
def execB64e (d a b c : Reg) (nopad : Bool) (s : State) : Result :=
  let dst := readReg s d
  let src := readReg s a
  let n := (readReg s b).toNat
  let len := b64len n (!nopad)
  if !rangeOK src n then raise .memRange src s
  else if !rangeOK dst len then raise .memRange dst s
  else complete (setReg (writeBytes s dst.toNat (b64enc (!nopad) (readBytes s src.toNat n))) c (natWord len))

/-- A byte sequence goes to the destination and its length to x[c], if the destination is in LMEM: the end of
R169, R176 and R180. -/
def storeResult (dst : Word) (c : Reg) (out : List Byte) (s : State) : Result :=
  if !rangeOK dst out.length then raise .memRange dst s
  else complete (setReg (writeBytes s dst.toNat out) c (natWord out.length))

/-- B64D (R169). -/
def execB64d (d a b c : Reg) (s : State) : Result :=
  let src := readReg s a
  let n := (readReg s b).toNat
  if !rangeOK src n then raise .memRange src s
  else
    match b64dec (readBytes s src.toNat n) with
    | .error k => raise .badBase64 (natWord k) s
    | .ok out => storeResult (readReg s d) c out s

/-- HENC (R176). -/
def execHenc (d a b c : Reg) (nopad : Bool) (s : State) : Result :=
  let src := readReg s a
  let n := readReg s b
  let share := readBytes s src.toNat n.toNat
  let k := identLength share
  if n.toNat < 20 then raise .badLength n s
  else if !rangeOK src n.toNat then raise .memRange src s
  else
    match firstBadIdent (share.take k) with
    | some q => raise .badIdent (natWord q) s
    | none => storeResult (readReg s d) c (humanText share k (!nopad)) s

/-- HDEC (R180): both offsets are offsets in the text. -/
def execHdec (d a b c : Reg) (s : State) : Result :=
  let src := readReg s a
  let n := (readReg s b).toNat
  let text := readBytes s src.toNat n
  if !rangeOK src n then raise .memRange src s
  else
    match hparse text with
    | .error k => raise .badHuman (natWord k) s
    | .ok q0 =>
      match b64dec (text.drop q0) with
      | .error k => raise .badBase64 (natWord (q0 + k)) s
      | .ok out => storeResult (readReg s d) c out s

end Sys2Proof.Machine
end

