-- ==== Sys2Proof/Machine/Control.lean ====
section
/-! DEFINITION. The sequencer control commands NOP, HALT, J, BZ and BNZ (44_control.md R230 to R236). -/

namespace Sys2Proof.Machine

/-- NOP (R230). -/
def execNop (s : State) : Result := complete s

/-- HALT (R232, R282): pc is already past the HALT and CMDCNT already counts it when the engine stops. -/
def execHalt (s : State) : Result := .next (stop (finish (s.pc + 4) s))

/-- A branch to the target of R231 if `taken`, else on to the next command. The target is not checked here. -/
def branchIf (taken : Bool) (imm : Imm16) (s : State) : Result :=
  .next (finish (if taken then branchTarget s.pc imm else s.pc + 4) s)

/-- J (R233). -/
def execJ (imm : Imm16) (s : State) : Result := branchIf true imm s

/-- BZ (R234): it tests all 32 bits of x[a]. -/
def execBz (a : Reg) (imm : Imm16) (s : State) : Result := branchIf (readReg s a == 0) imm s

/-- BNZ (R235). -/
def execBnz (a : Reg) (imm : Imm16) (s : State) : Result := branchIf (readReg s a != 0) imm s

end Sys2Proof.Machine
end

