-- ==== Sys2Proof/Machine/Gf256.lean ====
section
/-! DEFINITION. The arithmetic of GF(256) over the ROM tables: the field primitives (40_field.md R123 to R125),
polynomial evaluation (42_polyeval.md R200), and the Lagrange basis, interpolation and index check (43_lagrange.md R210,
R211). -/

namespace Sys2Proof.Machine

/-- Field addition, which is also subtraction (R123). -/
def gadd (x y : Byte) : Byte := x ^^^ y

/-- Field multiplication (R124). -/
def gmul (x y : Byte) : Byte :=
  if x = 0 ∨ y = 0 then 0 else expROM (((logROM x).toNat + (logROM y).toNat) % 255)

/-- The quotient that `gdiv` returns when its divisor is not 0 (R125, the lines after the DIV_ZERO check). -/
def gquot (x y : Byte) : Byte :=
  if x = 0 then 0 else expROM (((logROM x).toNat + 255 - (logROM y).toNat) % 255)

/-- Field division (R125): none is DIV_ZERO, and the divisor is checked first (D24, C5). -/
def gdiv (x y : Byte) : Option Byte := if y = 0 then none else some (gquot x y)

/-- Evaluate the polynomial with coefficients C, coeff[0] first, at X: R200's loop over y and p = X^i. -/
def polyEval (C : List Byte) (X : Byte) : Byte :=
  (C.foldl (fun (acc : Byte × Byte) c => (gadd acc.1 (gmul c acc.2), gmul acc.2 X)) (0x00, 0x01)).1

/-- Element i of the Lagrange basis at X = 0: the product over j ≠ i of U[j] / (U[j] + U[i]) (R210). After the index
check every divisor is non-zero (R211). -/
def basisAt (U : List Byte) (i : Nat) : Byte :=
  ((List.range U.length).filter (· ≠ i)).foldl
    (fun acc j => gmul acc (gquot (U.getD j 0) (gadd (U.getD j 0) (U.getD i 0)))) 0x01

/-- The Lagrange basis at X = 0 (R210). -/
def basis (U : List Byte) : List Byte := (List.range U.length).map (basisAt U)

/-- The field dot product of two sequences (R215). -/
def dot (A B : List Byte) : Byte := (A.zip B).foldl (fun y ab => gadd y (gmul ab.1 ab.2)) 0x00

/-- Lagrange interpolation at X = 0 (R210). -/
def interp (U V : List Byte) : Byte := dot (basis U) V

/-- The information word of BAD_INDEX for a zero index at position j (R211, R275). -/
def zeroIndexInfo (j : Nat) : Word := BitVec.ofNat 32 j

/-- The information word of BAD_INDEX for U[j] = U[i] (R211, R275). -/
def duplicateIndexInfo (i j : Nat) : Word := 0x00010000#32 ||| (BitVec.ofNat 32 i <<< 8) ||| BitVec.ofNat 32 j

/-- R211's scan from position j on, `seen` being U[0..j): the information word of the first failure. -/
def indexErrorFrom (seen : List Byte) (j : Nat) : List Byte → Option Word
  | [] => none
  | u :: rest =>
    if u = 0 then some (zeroIndexInfo j)
    else
      match seen.findIdx? (· == u) with
      | some i => some (duplicateIndexInfo i j)
      | none => indexErrorFrom (seen ++ [u]) (j + 1) rest

/-- `idxcheck(U)`: the information word of the BAD_INDEX it raises, or none if it passes (R211). -/
def indexError (U : List Byte) : Option Word := indexErrorFrom [] 0 U

end Sys2Proof.Machine
end

