-- ==== Sys2Proof/Machine/Field.lean ====
section
/-! DEFINITION. The field commands GADD, GMUL, GDIV, GEXP and GLOG (40_field.md R126 to R130). -/

namespace Sys2Proof.Machine

/-- GADD (R126). -/
def execGadd (d a b : Reg) (s : State) : Result :=
  complete (setFieldReg s d (gadd (fieldOperand s a) (fieldOperand s b)))

/-- GMUL (R127). -/
def execGmul (d a b : Reg) (s : State) : Result :=
  complete (setFieldReg s d (gmul (fieldOperand s a) (fieldOperand s b)))

/-- GDIV (R128): DIV_ZERO carries the dividend byte. -/
def execGdiv (d a b : Reg) (s : State) : Result :=
  match gdiv (fieldOperand s a) (fieldOperand s b) with
  | none => raise .divZero (zextByte (fieldOperand s a)) s
  | some q => complete (setFieldReg s d q)

/-- GEXP (R129): every index has an entry, 255 too. -/
def execGexp (d a : Reg) (s : State) : Result := complete (setFieldReg s d (expROM (fieldOperand s a).toNat))

/-- GLOG (R130): the logarithm of 0 does not exist, and LOG[0] is not read. -/
def execGlog (d a : Reg) (s : State) : Result :=
  if fieldOperand s a = 0 then raise .logZero 0 s
  else complete (setFieldReg s d (logROM (fieldOperand s a)))

end Sys2Proof.Machine
end

