-- ==== Sys2Proof/Machine/Integer.lean ====
section
/-! DEFINITION. The integer commands LI, LUI, ADDI, ADD and SUB (45_integer_loadstore.md R250 to R255): 32-bit patterns
modulo 2^32, no flags, overflow wraps silently. -/

namespace Sys2Proof.Machine

/-- LI (R250): bits [31:16] become 0. -/
def execLi (d : Reg) (imm : Imm16) (s : State) : Result := complete (setReg s d (zextImm imm))

/-- LUI (R251): x[d] <- {imm16, x[d][15:0]}. -/
def execLui (d : Reg) (imm : Imm16) (s : State) : Result :=
  complete (setReg s d (imm ++ (readReg s d).extractLsb' 0 16))

/-- ADDI (R252). -/
def execAddi (d a : Reg) (imm : Imm16) (s : State) : Result := complete (setReg s d (readReg s a + sextImm imm))

/-- ADD (R253). -/
def execAdd (d a b : Reg) (s : State) : Result := complete (setReg s d (readReg s a + readReg s b))

/-- SUB (R254). -/
def execSub (d a b : Reg) (s : State) : Result := complete (setReg s d (readReg s a - readReg s b))

end Sys2Proof.Machine
end

