-- ==== Sys2Proof/Machine/LoadStore.lean ====
section
/-! DEFINITION. LDB and STB (45_integer_loadstore.md R256 to R258): one byte at base plus signed displacement. -/

namespace Sys2Proof.Machine

/-- LDB (R256): the byte is zero-extended. -/
def execLdb (d a : Reg) (imm : Imm16) (s : State) : Result :=
  let ea := effectiveAddress s a imm
  if !byteOK ea then raise .memRange ea s
  else complete (setReg s d (zextByte (byteAt s ea.toNat)))

/-- STB (R257): d names the data register, and bits [7:0] of it are stored. -/
def execStb (d a : Reg) (imm : Imm16) (s : State) : Result :=
  let ea := effectiveAddress s a imm
  if !byteOK ea then raise .memRange ea s
  else complete (writeBytes s ea.toNat [(readReg s d).setWidth 8])

end Sys2Proof.Machine
end

