-- ==== Sys2Proof/Machine/Poly.lean ====
section
/-! DEFINITION. PEVAL (42_polyeval.md R200), and LAGR, LBASIS and GDOT (43_lagrange.md R213 to R215), each with its
checks in the order its rule lists them. -/

namespace Sys2Proof.Machine

/-- PEVAL (R200). -/
def execPeval (d a b c : Reg) (s : State) : Result :=
  let base := readReg s b
  let n := readReg s c
  if !countOK n then raise .badCount n s
  else if !rangeOK base n.toNat then raise .memRange base s
  else complete (setFieldReg s d (polyEval (readBytes s base.toNat n.toNat) (fieldOperand s a)))

/-- LAGR (R213): the V elements are strided, and their range is checked before the indices. -/
def execLagr (d a b c e : Reg) (s : State) : Result :=
  let ua := readReg s a
  let n := readReg s c
  let vas := stridedAddrs (readReg s b) (readReg s e) n.toNat
  if !countOK n then raise .badCount n s
  else if !rangeOK ua n.toNat then raise .memRange ua s
  else
    match firstOutside vas with
    | some va => raise .memRange va s
    | none =>
      match indexError (readBytes s ua.toNat n.toNat) with
      | some info => raise .badIndex info s
      | none => complete (setFieldReg s d (interp (readBytes s ua.toNat n.toNat) (gather s vas)))

/-- LBASIS (R214): it writes n bytes and no register. -/
def execLbasis (d a c : Reg) (s : State) : Result :=
  let ua := readReg s a
  let dst := readReg s d
  let n := readReg s c
  if !countOK n then raise .badCount n s
  else if !rangeOK ua n.toNat then raise .memRange ua s
  else if !rangeOK dst n.toNat then raise .memRange dst s
  else
    match indexError (readBytes s ua.toNat n.toNat) with
    | some info => raise .badIndex info s
    | none => complete (writeBytes s dst.toNat (basis (readBytes s ua.toNat n.toNat)))

/-- GDOT (R215): no index check. -/
def execGdot (d a b c e : Reg) (s : State) : Result :=
  let aa := readReg s a
  let n := readReg s c
  let bas := stridedAddrs (readReg s b) (readReg s e) n.toNat
  if !countOK n then raise .badCount n s
  else if !rangeOK aa n.toNat then raise .memRange aa s
  else
    match firstOutside bas with
    | some ba => raise .memRange ba s
    | none => complete (setFieldReg s d (dot (readBytes s aa.toNat n.toNat) (gather s bas)))

end Sys2Proof.Machine
end

