-- ==== Sys2Proof/Machine/Dispatch.lean ====
section
/-! DEFINITION. The meaning of each command: `run the command's rule on the current state` of 60_exceptions.md R280,
with its error entry or its commit. One arm per constructor of Instr. -/

namespace Sys2Proof.Machine

def exec (i : Instr) (s : State) : Host.Outcome State Fault Refusal :=
  match i with
  | .nop => Sys2Proof.Machine.execNop s
  | .halt => Sys2Proof.Machine.execHalt s
  | .j imm => Sys2Proof.Machine.execJ imm s
  | .bz a imm => Sys2Proof.Machine.execBz a imm s
  | .bnz a imm => Sys2Proof.Machine.execBnz a imm s
  | .li d imm => Sys2Proof.Machine.execLi d imm s
  | .lui d imm => Sys2Proof.Machine.execLui d imm s
  | .addi d a imm => Sys2Proof.Machine.execAddi d a imm s
  | .add d a b => Sys2Proof.Machine.execAdd d a b s
  | .sub d a b => Sys2Proof.Machine.execSub d a b s
  | .ldb d a imm => Sys2Proof.Machine.execLdb d a imm s
  | .stb d a imm => Sys2Proof.Machine.execStb d a imm s
  | .gadd d a b => Sys2Proof.Machine.execGadd d a b s
  | .gmul d a b => Sys2Proof.Machine.execGmul d a b s
  | .gdiv d a b => Sys2Proof.Machine.execGdiv d a b s
  | .gexp d a => Sys2Proof.Machine.execGexp d a s
  | .glog d a => Sys2Proof.Machine.execGlog d a s
  | .peval d a b c => Sys2Proof.Machine.execPeval d a b c s
  | .lagr d a b c e => Sys2Proof.Machine.execLagr d a b c e s
  | .lbasis d a c => Sys2Proof.Machine.execLbasis d a c s
  | .gdot d a b c e => Sys2Proof.Machine.execGdot d a b c e s
  | .hpack d a b c => Sys2Proof.Machine.execHpack d a b c s
  | .hunpack d a b => Sys2Proof.Machine.execHunpack d a b s
  | .b64e d a b c nopad => Sys2Proof.Machine.execB64e d a b c nopad s
  | .b64d d a b c => Sys2Proof.Machine.execB64d d a b c s
  | .henc d a b c nopad => Sys2Proof.Machine.execHenc d a b c nopad s
  | .hdec d a b c => Sys2Proof.Machine.execHdec d a b c s

end Sys2Proof.Machine
end

