-- ==== Sys2Proof/Machine/Engine.lean ====
section
/-! DEFINITION. The engine step (60_exceptions.md R278, R280, R281): the abort check, the fetch checks, the fetch, the
decode, and the command. -/

namespace Sys2Proof.Machine

/-- pc is the address of a command word in LMEM: the checks of R23 and R278, on the full 32-bit pc. -/
def fetchable (pc : Word) : Bool := decide (pc.toNat % 4 = 0) && decide (pc.toNat ≤ Config.lmemSize - 4)

/-- The word the engine fetches, little-endian (R61). -/
def fetchWord (s : State) : Word := wordAt s s.pc.toNat

/-- Decode a fetched word and run its command, or raise ILLEGAL_CMD with the word (R97, R98, R280). -/
def runWord (w : Word) (s : State) : Result :=
  match decode w with
  | .error _ => raise .illegalCmd w s
  | .ok i => exec i s

/-- One engine step (R280). While BUSY = 0 the engine takes no step: its turn passes and nothing changes (R26; log entry
8). -/
def engineStep (s : State) : Result :=
  if !s.busy then .next s
  else if s.abortReq then .next (takeAbort s)
  else if s.pc.toNat % 4 ≠ 0 then raise .fetchMisaligned s.pc s
  else if Config.lmemSize - 4 < s.pc.toNat then raise .fetchRange s.pc s
  else runWord (fetchWord s) s

/-- The state with a word stored where the engine fetches next, and the engine running with no turn before its own: the
host's load and START in one (R314; log entry 10). A pc that no fetch can use becomes 0. -/
def placeFetchWord (s : State) (w : Word) : State :=
  let pc := if fetchable s.pc then s.pc else 0
  { writeBytes s pc.toNat (bytesLE w) with pc := pc, busy := true, abortReq := false, turns := [] }

end Sys2Proof.Machine
end

