-- ==== Sys2Proof/Machine/Step.lean ====
section
/-! DEFINITION. One step of the machine: the turn of one agent (00_scope.md R12). `turns` says whose it is; when no turn
is left the host is silent and the engine steps (log entry 7). -/

namespace Sys2Proof.Machine

/-- One step: an engine step, a host access, the reset input, or power-on, between which nothing happens (R70, R280,
R311). -/
def step (s : State) : Host.Outcome State Fault Refusal :=
  match s.turns with
  | [] => engineStep s
  | .engine :: rest => engineStep { s with turns := rest }
  | .host acc :: rest => .next (hostAccess acc { s with turns := rest })
  | .reset :: rest => .next (resetInput { s with turns := rest })
  | .powerOn :: rest => .next (powerOn { s with turns := rest })

/-- The state with the table word stored where `step` fetches its next command, and the engine about to fetch it. -/
def State.withFetchWord (s : State) (nbits w : Nat) : State := placeFetchWord s (tableWord nbits w)

end Sys2Proof.Machine
end

