-- ==== Sys2Proof/Machine/Boot.lean ====
section
/-! DEFINITION. How the host runs a program: the accesses of 70_reset_and_hazards.md R314, in their order, as turns
(log entry 10). -/

namespace Sys2Proof.Machine

/-- A 32-bit read of a block offset. -/
def readTurn (off : Nat) : Turn := .host ⟨BitVec.ofNat 21 off, .word, .read⟩

/-- A 32-bit write to a block offset. -/
def writeTurn (off : Nat) (v : Word) : Turn := .host ⟨BitVec.ofNat 21 off, .word, .write v⟩

/-- R314 step 2: the command stream through the window, one word at a time from a 4-byte-aligned address on. -/
def loadWords : Nat → List Word → List Turn
  | _, [] => []
  | a, w :: ws => writeTurn (windowBase + a) w :: loadWords (a + 4) ws

/-- R314 step 3: data bytes through the window. -/
def loadBytes : Nat → List Byte → List Turn
  | _, [] => []
  | a, b :: bs => .host ⟨BitVec.ofNat 21 (windowBase + a), .byte, .write (b.setWidth 32)⟩ :: loadBytes (a + 1) bs

/-- R314 step 4: the general registers the command stream reads before it writes them. -/
def loadRegs (rs : List (Reg × Word)) : List Turn := rs.map (fun rv => writeTurn (0x040 + 4 * rv.1.toNat) rv.2)

/-- What the host loads before a START (R314). -/
structure BootImage where
  codeAddr : Nat
  code : List Word
  dataAddr : Nat
  data : List Byte
  entry : Word
  regs : List (Reg × Word)
  irqen : Word
  deriving DecidableEq, Repr

/-- R314's six steps: ID and LMEMSZ, the commands, the data, PC and the GPRs, STATUS and IRQEN, START. -/
def bootTurns (img : BootImage) : List Turn :=
  [readTurn 0x000, readTurn 0x020] ++ loadWords img.codeAddr img.code ++ loadBytes img.dataAddr img.data ++
    [writeTurn 0x010 img.entry] ++ loadRegs img.regs ++ [writeTurn 0x008 0x0000000E, writeTurn 0x00C img.irqen] ++
    [writeTurn 0x004 0x00000001]

end Sys2Proof.Machine
end

