-- ==== Sys2Proof/Safety.lean ====
section
/-! DEFINITION. What counts as a sound state and how a run ends: the invariant of the machine (10_state.md R35, R45;
60_exceptions.md R276, R282, R290, R292), the outcome of a run (R300), and the source's error classes (R271, R272). -/

namespace Sys2Proof.Machine

/-- At most one of BUSY, DONE and ERR is 1 (R35). -/
abbrev RunFlagsExclusive (s : State) : Prop :=
  (s.busy = true → s.done = false ∧ s.err = false) ∧ (s.done = true → s.err = false)

/-- ERRCODE is 0x00 exactly when ERR = 0 (R35, R274). -/
abbrev ErrCodeAgrees (s : State) : Prop := s.err = false ↔ s.errCode = .none

/-- ABORTREQ is set only while BUSY = 1: it is cleared when the engine stops for any reason (R45). -/
abbrev AbortOnlyWhileBusy (s : State) : Prop := s.abortReq = true → s.busy = true

/-- LMEM is in its canonical form and lists no address outside LMEM (R27, R68). -/
abbrev LmemSound (s : State) : Prop := s.lmem.wf ∧ s.lmem.inside

/-- The invariant: it holds after reset and every step of either agent keeps it. -/
abbrev Sound (s : State) : Prop :=
  RunFlagsExclusive s ∧ ErrCodeAgrees s ∧ AbortOnlyWhileBusy s ∧ LmemSound s

/-- How a run stands or has ended (R300). -/
inductive RunOutcome where
  /-- BUSY = 1: the run goes on. -/
  | running
  /-- DONE = 1, ERRCODE = 0. -/
  | halted
  /-- ERR = 1 with ERRCODE in 0x01 to 0x0D. -/
  | faulted (e : ErrCode)
  /-- ERR = 1 with ERRCODE = 0x0E. -/
  | aborted
  /-- Idle with neither bit set: no run since the reset, or the host has cleared the bit (R36). -/
  | idle
  deriving DecidableEq, Repr

/-- The outcome the status bits show (R300). -/
def runOutcome (s : State) : RunOutcome :=
  if s.busy then .running
  else if s.err then (if s.errCode = .aborted then .aborted else .faulted s.errCode)
  else if s.done then .halted
  else .idle

/-- The source's error classes that an engine code can map to (R271, R272). -/
inductive SourceClass where
  /-- `Error`: a fatal field-math fault or an unsupported hash code. -/
  | fatal
  /-- `ArgumentError`. -/
  | argument
  deriving DecidableEq, Repr

/-- The source class of an error code; none for the engine's own codes (R272). -/
def sourceClass : ErrCode → Option SourceClass
  | .divZero => some .fatal
  | .badHash => some .fatal
  | .badCount => some .argument
  | .badIndex => some .argument
  | .badLength => some .argument
  | .badIdent => some .argument
  | .badBase64 => some .argument
  | .badHuman => some .argument
  | .none => none
  | .illegalCmd => none
  | .fetchMisaligned => none
  | .fetchRange => none
  | .memRange => none
  | .logZero => none
  | .aborted => none

end Sys2Proof.Machine
end

