-- ==== Sys2Proof/Certificates/Slice0/Obligations.lean ====
section
/-! DEFINITION. The statements for the provers, each with the rules of spec/ it formalises in OBLIGATIONS.json. The
predicates of `Sys2Proof.Statements` come first: how a command completes or raises, and the spec's own side of a few
functions, written without the model's tables. -/

namespace Sys2Proof.Statements

open Sys2Proof.Machine

/-! ## Completing and raising -/

/-- The model's own fields are as before: no command touches them (log entries 1, 2, 7 and 9). -/
def SameModelFields (s t : State) : Prop :=
  t.lmemDraw = s.lmemDraw ∧ t.freeDraws = s.freeDraws ∧ t.turns = s.turns ∧ t.response = s.response

/-- The host's enables and HACC are as before. -/
def SameHostBits (s t : State) : Prop :=
  t.hacc = s.hacc ∧ t.doneIE = s.doneIE ∧ t.errIE = s.errIE ∧ t.haccIE = s.haccIE

/-- Everything is as before but the general registers, pc, CMDCNT and LMEM. -/
def SameControl (s t : State) : Prop :=
  t.busy = s.busy ∧ t.abortReq = s.abortReq ∧ t.done = s.done ∧ t.err = s.err ∧ t.errCode = s.errCode ∧
    t.errPC = s.errPC ∧ t.errInfo = s.errInfo ∧ SameHostBits s t ∧ SameModelFields s t

/-- From s to t the bytes bs are stored at address a, and every other byte of LMEM is as before. -/
def Stored (s t : State) (a : Nat) (bs : List Byte) : Prop :=
  (∀ k, k < bs.length → byteAt t (a + k) = bs.getD k 0) ∧
    (∀ x, x < a ∨ a + bs.length ≤ x → byteAt t x = byteAt s x)

/-- The command answers the next state in which the registers of `writes` hold their values and every other register is as
before, the bytes bs are stored at a and every other byte is as before, pc is `next`, CMDCNT has counted one, and
nothing else has changed. -/
def Completes (i : Instr) (s : State) (writes : List (Reg × Word)) (a : Nat) (bs : List Byte) (next : Word) : Prop :=
  ∃ t, exec i s = .next t ∧ (∀ rv ∈ writes, readReg t rv.1 = rv.2) ∧
    (∀ r, r ∉ writes.map Prod.fst → readReg t r = readReg s r) ∧ Stored s t a bs ∧ t.pc = next ∧
    t.cmdCnt = s.cmdCnt + 1 ∧ SameControl s t

/-- A command that stores nothing and goes on to the next one. -/
def Writes (i : Instr) (s : State) (writes : List (Reg × Word)) : Prop := Completes i s writes 0 [] (s.pc + 4)

/-- `raise E(info)` of R276: the outcome is the next state with the error recorded and nothing else changed. -/
def Raises (o : Result) (s : State) (e : ErrCode) (info : Word) : Prop :=
  ∃ t, o = .next t ∧ t.busy = false ∧ t.err = true ∧ t.errCode = e ∧ t.errPC = s.pc ∧ t.errInfo = info ∧
    t.abortReq = false ∧ t.pc = s.pc ∧ t.cmdCnt = s.cmdCnt ∧ t.done = s.done ∧
    (∀ r, readReg t r = readReg s r) ∧ (∀ a, byteAt t a = byteAt s a) ∧ SameHostBits s t ∧ SameModelFields s t

/-- The word w is the command i and no other word is: w decodes to i, and i encodes to w. -/
def EncodedAs (i : Instr) (w : Word) : Prop := decode w = .ok i ∧ encode i = w

/-! ## Operands -/

/-- `RangeOK(addr, n)` of R8, on unbounded integers. -/
abbrev InLmem (addr : Word) (n : Nat) : Prop :=
  n = 0 ∨ (addr.toNat < Config.lmemSize ∧ n ≤ Config.lmemSize - addr.toNat)

/-- A count operand is in 1 to 255. -/
abbrev CountInRange (n : Word) : Prop := 1 ≤ n.toNat ∧ n.toNat ≤ 255

/-- The low byte of a register. -/
def lowByte (s : State) (r : Reg) : Byte := (readReg s r).extractLsb' 0 8

/-- Element i of a strided access: `(base + i * stride) mod 2^32` (R65). -/
def element (base stride : Word) (i : Nat) : Word := base + BitVec.ofNat 32 i * stride

/-- The bytes of a strided access (R65). -/
def elementBytes (s : State) (base stride : Word) (n : Nat) : List Byte :=
  (List.range n).map (fun i => byteAt s (element base stride i).toNat)

/-! ## GF(256) by polynomials, without the tables -/

/-- x times the polynomial X, reduced modulo X^8 + X^4 + X^3 + X + 1. -/
def xtime (x : Byte) : Byte := (x <<< 1) ^^^ (if x.getLsbD 7 then 0x1B else 0x00)

/-- The product over the k low bits of y. -/
def polyMulBits : Nat → Byte → Byte → Byte
  | 0, _, _ => 0
  | k + 1, x, y => (if y.getLsbD 0 then x else 0) ^^^ polyMulBits k (xtime x) (y >>> 1)

/-- The product of x and y as polynomials over GF(2), reduced modulo 0x11B (R131). -/
def polyMul (x y : Byte) : Byte := polyMulBits 8 x y

/-- x to the power n, with power 0 equal to 1. -/
def polyPow (x : Byte) : Nat → Byte
  | 0 => 1
  | n + 1 => polyMul (polyPow x n) x

/-- The sum over i of c_i times X^(k+i): R202's sum, from power k on. -/
def powerSum (X : Byte) : Nat → List Byte → Byte
  | _, [] => 0
  | k, c :: cs => polyMul c (polyPow X k) ^^^ powerSum X (k + 1) cs

/-- Horner's evaluation (R202). -/
def horner (X : Byte) : List Byte → Byte
  | [] => 0
  | c :: cs => polyMul (horner X cs) X ^^^ c

/-! ## Frames over all commands -/

/-- The registers a command's rule says it writes: the `W` roles of R95. -/
def destRegs : Instr → List Reg
  | .nop => []
  | .halt => []
  | .j _ => []
  | .bz _ _ => []
  | .bnz _ _ => []
  | .li d _ => [d]
  | .lui d _ => [d]
  | .addi d _ _ => [d]
  | .add d _ _ => [d]
  | .sub d _ _ => [d]
  | .ldb d _ _ => [d]
  | .stb _ _ _ => []
  | .gadd d _ _ => [d]
  | .gmul d _ _ => [d]
  | .gdiv d _ _ => [d]
  | .gexp d _ => [d]
  | .glog d _ => [d]
  | .peval d _ _ _ => [d]
  | .lagr d _ _ _ _ => [d]
  | .lbasis _ _ _ => []
  | .gdot d _ _ _ _ => [d]
  | .hpack _ _ _ _ => []
  | .hunpack d _ b => [d, b]
  | .b64e _ _ _ c _ => [c]
  | .b64d _ _ _ c => [c]
  | .henc _ _ _ c _ => [c]
  | .hdec _ _ _ c => [c]

/-- The number of bytes a decoder stores: none where it rejects its input. -/
def decodedLength (r : Except Nat (List Byte)) : Nat :=
  match r with
  | .ok out => out.length
  | .error _ => 0

/-- Where a command stores and how many bytes, from its operands: the first address and the length. -/
def storeRange (i : Instr) (s : State) : Nat × Nat :=
  match i with
  | .stb _ a imm => ((effectiveAddress s a imm).toNat, 1)
  | .lbasis d _ c => ((readReg s d).toNat, (readReg s c).toNat)
  | .hpack d _ _ _ => ((readReg s d).toNat, 20)
  | .b64e d _ b _ nopad => ((readReg s d).toNat, b64len (readReg s b).toNat (!nopad))
  | .b64d d a b _ =>
    ((readReg s d).toNat, decodedLength (b64dec (readBytes s (readReg s a).toNat (readReg s b).toNat)))
  | .henc d a b _ nopad =>
    let share := readBytes s (readReg s a).toNat (readReg s b).toNat
    ((readReg s d).toNat,
      7 + identLength share + 1 + (decimal (share.getD 17 0)).length + 1 + b64len (readReg s b).toNat (!nopad))
  | .hdec d a b _ =>
    let text := readBytes s (readReg s a).toNat (readReg s b).toNat
    ((readReg s d).toNat,
      match hparse text with
      | .ok q0 => decodedLength (b64dec (text.drop q0))
      | .error _ => 0)
  | .nop => (0, 0)
  | .halt => (0, 0)
  | .j _ => (0, 0)
  | .bz _ _ => (0, 0)
  | .bnz _ _ => (0, 0)
  | .li _ _ => (0, 0)
  | .lui _ _ => (0, 0)
  | .addi _ _ _ => (0, 0)
  | .add _ _ _ => (0, 0)
  | .sub _ _ _ => (0, 0)
  | .ldb _ _ _ => (0, 0)
  | .gadd _ _ _ => (0, 0)
  | .gmul _ _ _ => (0, 0)
  | .gdiv _ _ _ => (0, 0)
  | .gexp _ _ => (0, 0)
  | .glog _ _ => (0, 0)
  | .peval _ _ _ _ => (0, 0)
  | .lagr _ _ _ _ _ => (0, 0)
  | .gdot _ _ _ _ _ => (0, 0)
  | .hunpack _ _ _ => (0, 0)

/-- Where a completed command goes on: the target of J and of a taken BZ or BNZ, else pc + 4 (R23). -/
def nextPc (i : Instr) (s : State) : Word :=
  match i with
  | .j imm => s.pc + imm.signExtend 32 * 4
  | .bz a imm => if readReg s a = 0 then s.pc + imm.signExtend 32 * 4 else s.pc + 4
  | .bnz a imm => if readReg s a = 0 then s.pc + 4 else s.pc + imm.signExtend 32 * 4
  | .nop => s.pc + 4
  | .halt => s.pc + 4
  | .li _ _ => s.pc + 4
  | .lui _ _ => s.pc + 4
  | .addi _ _ _ => s.pc + 4
  | .add _ _ _ => s.pc + 4
  | .sub _ _ _ => s.pc + 4
  | .ldb _ _ _ => s.pc + 4
  | .stb _ _ _ => s.pc + 4
  | .gadd _ _ _ => s.pc + 4
  | .gmul _ _ _ => s.pc + 4
  | .gdiv _ _ _ => s.pc + 4
  | .gexp _ _ => s.pc + 4
  | .glog _ _ => s.pc + 4
  | .peval _ _ _ _ => s.pc + 4
  | .lagr _ _ _ _ _ => s.pc + 4
  | .lbasis _ _ _ => s.pc + 4
  | .gdot _ _ _ _ _ => s.pc + 4
  | .hpack _ _ _ _ => s.pc + 4
  | .hunpack _ _ _ => s.pc + 4
  | .b64e _ _ _ _ _ => s.pc + 4
  | .b64d _ _ _ _ => s.pc + 4
  | .henc _ _ _ _ _ => s.pc + 4
  | .hdec _ _ _ _ => s.pc + 4

/-! ## The host's side -/

/-- An offset that the map of R29 reserves. -/
abbrev ReservedOffset (off : Nat) : Prop :=
  (0x024 ≤ off ∧ off < 0x040) ∨ (0x080 ≤ off ∧ off < 0x100000) ∨ 0x100000 + Config.lmemSize ≤ off

/-- The three bus error conditions of R73. -/
abbrev BusErrorAccess (acc : Access) : Prop :=
  ReservedOffset acc.offset.toNat ∨
    (acc.offset.toNat < 0x100000 ∧ (acc.width ≠ .word ∨ acc.offset.toNat % 4 ≠ 0)) ∨
    (0x100000 ≤ acc.offset.toNat ∧ acc.offset.toNat % widthBytes acc.width ≠ 0)

/-- A 32-bit read of a register offset. -/
def regRead (off : Nat) : Access := ⟨BitVec.ofNat 21 off, .word, .read⟩
/-- A 32-bit write to a register offset. -/
def regWrite (off : Nat) (v : Word) : Access := ⟨BitVec.ofNat 21 off, .word, .write v⟩
/-- A read of the LMEM window. -/
def windowRead (a : Nat) (w : Width) : Access := ⟨BitVec.ofNat 21 (0x100000 + a), w, .read⟩
/-- A write to the LMEM window. -/
def windowWrite (a : Nat) (w : Width) (v : Word) : Access := ⟨BitVec.ofNat 21 (0x100000 + a), w, .write v⟩

/-- A bit as a number. -/
def bit (b : Bool) : Nat := if b then 1 else 0

/-- STATUS as the sum of its bits (R35). -/
def statusSum (s : State) : Word :=
  BitVec.ofNat 32
    (256 * (errCodeByte s.errCode).toNat + 8 * bit s.hacc + 4 * bit s.err + 2 * bit s.done + bit s.busy)

/-- IRQEN as the sum of its bits (R37). -/
def irqenSum (s : State) : Word := BitVec.ofNat 32 (8 * bit s.haccIE + 4 * bit s.errIE + 2 * bit s.doneIE)

/-- The port answers the read with v, and nothing else changes (R31) but the model's own counter of draws (log entry 2). -/
def ReadGives (acc : Access) (s : State) (v : Word) : Prop :=
  hostAccess acc s = { s with response := .data v, freeDraws := s.freeDraws + 1 }

/-- It is the engine that steps in s, and u is s as it finds it: s itself when no turn is listed, else s with the engine's
own turn used up (log entry 7). -/
def EngineTurn (s u : State) : Prop :=
  (s.turns = [] ∧ u = s) ∨ ∃ rest, s.turns = .engine :: rest ∧ u = { s with turns := rest }

/-! ## The codec's side -/

/-- The identifier of a 20-byte header is in IDSET (R153, R154). -/
abbrev IdentOK (share : List Byte) : Prop := ∀ k, k < identLength share → inIdset (share.getD k 0) = true

/-- IDSET: the bytes of `[A-Za-z0-9._-]` by their ranges (R153). -/
abbrev InIdset (b : Byte) : Prop :=
  (0x41 ≤ b.toNat ∧ b.toNat ≤ 0x5A) ∨ (0x61 ≤ b.toNat ∧ b.toNat ≤ 0x7A) ∨ (0x30 ≤ b.toNat ∧ b.toNat ≤ 0x39) ∨
    b.toNat = 0x2E ∨ b.toNat = 0x5F ∨ b.toNat = 0x2D

/-- The number that a row of decimal digits writes. -/
def decimalValue (ds : List Byte) : Nat := ds.foldl (fun n ch => 10 * n + (ch.toNat - 0x30)) 0

/-- s is alphabet bytes and then `=` pads (R163). -/
abbrev AlphabetThenPads (s body : List Byte) (p : Nat) : Prop :=
  s = body ++ List.replicate p padChar ∧ ∀ ch ∈ body, isB64 ch = true

end Sys2Proof.Statements

open Sys2Proof Sys2Proof.Machine Sys2Proof.Statements

/-! ## Encoding -/

/-- Words written out from R95's fields decode to their commands (95_test_vectors.md, P1 to P6). -/
def Obligations.SpecWordsDecode : Prop :=
  decode 0x02000000 = .ok .halt ∧ decode 0x0502FFFC = .ok (.bnz 2 0xFFFC) ∧ decode 0x1222FFFF = .ok (.addi 2 2 0xFFFF) ∧
    decode 0x21310000 = .ok (.stb 3 1 0x0000) ∧ decode 0x31334000 = .ok (.gmul 3 3 4) ∧
    decode 0x4158A2B0 = .ok (.lagr 5 8 10 2 11) ∧ decode 0x51B9C000 = .ok (.hunpack 11 9 12) ∧
    decode 0x52123401 = .ok (.b64e 1 2 3 4 true)

/-- Decoding the word, or the bytes, of any well-formed command gives it back with every operand (R90, R91, R95). -/
def Obligations.DecodeOfEncode : Prop :=
  ∀ (i : Instr) (rest : List Byte), i.wellFormed = true →
    decode (encode i) = .ok i ∧ decodeBytes (encodeBytes i ++ rest) = .ok (i, rest)

/-- R100: every word is exactly one command with its field values, or illegal; no two rows share an opcode. -/
def Obligations.EveryWordIsOneCommandOrIllegal : Prop :=
  (∀ w : Word,
    (∃ i, decode w = .ok i ∧ i.wellFormed = true ∧ encode i = w ∧ ∀ j, j.wellFormed = true → encode j = w → j = i) ∨
    (∃ e, decode w = .error e ∧ ∀ j : Instr, j.wellFormed = true → encode j ≠ w)) ∧
  (opcodeTable.map (fun r => opcodeField r.value)).Nodup

/-- R96: a word is a command if and only if its row's mask and match hold and, for HUNPACK, d ≠ b. -/
def Obligations.DecodeAgreesWithTheMasks : Prop :=
  (∀ (w : Word) (i : Instr), decode w = .ok i →
    ∃ r ∈ opcodeTable, r.mnemonic = i.mnemonic ∧ w &&& r.mask = r.value ∧
      (r.mnemonic = "HUNPACK" → fieldD w ≠ fieldB w)) ∧
  (∀ (w : Word), ∀ r ∈ opcodeTable, w &&& r.mask = r.value → (r.mnemonic = "HUNPACK" → fieldD w ≠ fieldB w) →
    ∃ i, decode w = .ok i ∧ i.mnemonic = r.mnemonic)

/-! ## The engine step -/

/-- What a step does on each agent's turn. When the four bytes at pc decode to a command, the engine's step is the meaning
of that command, alone or on its own turn, which is then used up (R61, R280). On the host's turn the step is that access,
and its turn is used up (R12, R70). The list of turns is the model's form (log entry 7). -/
def Obligations.StepRunsDecodedCommand : Prop :=
  (∀ (s : State) (i : Instr), s.busy = true → s.abortReq = false → s.pc.toNat % 4 = 0 →
    s.pc.toNat ≤ Config.lmemSize - 4 →
    decode (byteAt s (s.pc.toNat + 3) ++ byteAt s (s.pc.toNat + 2) ++ byteAt s (s.pc.toNat + 1) ++ byteAt s s.pc.toNat) =
      .ok i →
    (s.turns = [] → step s = exec i s) ∧
      ∀ rest, s.turns = .engine :: rest → step s = exec i { s with turns := rest }) ∧
  ∀ (s : State) (acc : Access) (rest : List Turn), s.turns = .host acc :: rest →
    step s = .next (hostAccess acc { s with turns := rest })

/-- R281: a pending abort comes before FETCH_MISALIGNED, that before FETCH_RANGE, that before ILLEGAL_CMD, and that before
the command's own checks. Each is one error entry. `u` is the state the engine finds at its step, with its own turn, if
one is listed, used up (log entry 7). -/
def Obligations.EngineErrorsInOrder : Prop :=
  ∀ s u : State, EngineTurn s u → u.busy = true →
    (u.abortReq = true → Raises (step s) u .aborted 0) ∧
    (u.abortReq = false → u.pc.toNat % 4 ≠ 0 → Raises (step s) u .fetchMisaligned u.pc) ∧
    (u.abortReq = false → u.pc.toNat % 4 = 0 → Config.lmemSize - 4 < u.pc.toNat →
      Raises (step s) u .fetchRange u.pc) ∧
    (u.abortReq = false → u.pc.toNat % 4 = 0 → u.pc.toNat ≤ Config.lmemSize - 4 → ∀ e,
      decode (wordAt u u.pc.toNat) = .error e → Raises (step s) u .illegalCmd (wordAt u u.pc.toNat)) ∧
    (u.abortReq = false → u.pc.toNat % 4 = 0 → u.pc.toNat ≤ Config.lmemSize - 4 → ∀ i,
      decode (wordAt u u.pc.toNat) = .ok i → step s = exec i u)

/-- R97 and R98 at the engine: an unassigned opcode, a non-zero unused field, and HUNPACK with d = b each raise
ILLEGAL_CMD with ERRINFO = the word. `u` is the state the engine finds at its step (log entry 7). -/
def Obligations.IllegalWordsRaiseIllegalCmd : Prop :=
  ∀ s u : State, EngineTurn s u → u.busy = true → u.abortReq = false → u.pc.toNat % 4 = 0 →
    u.pc.toNat ≤ Config.lmemSize - 4 →
    ((∀ r ∈ opcodeTable, opcodeField (wordAt u u.pc.toNat) ≠ opcodeField r.value) →
      Raises (step s) u .illegalCmd (wordAt u u.pc.toNat)) ∧
    (∀ r ∈ opcodeTable, opcodeField (wordAt u u.pc.toNat) = opcodeField r.value →
      wordAt u u.pc.toNat &&& r.mask ≠ r.value → Raises (step s) u .illegalCmd (wordAt u u.pc.toNat)) ∧
    (opcodeField (wordAt u u.pc.toNat) = 0x51 → fieldD (wordAt u u.pc.toNat) = fieldB (wordAt u u.pc.toNat) →
      Raises (step s) u .illegalCmd (wordAt u u.pc.toNat))

/-- Every step of either agent, and every command, answers a next state: the model has no fault and no refusal. A step of a
running engine ends in a new state, an error or a stop (R280). That the idle engine's turn answers one too is the model's
choice (log entry 8), and so is the answer of the ill-formed HUNPACK with d = b, which no step runs (log entry 11). -/
def Obligations.EveryStepAnswersANextState : Prop :=
  (∀ s : State, ∃ t, step s = .next t) ∧ ∀ (i : Instr) (s : State), ∃ t, exec i s = .next t

/-- Every step of either agent keeps the invariant: the exclusive run flags (R35), ERRCODE against ERR, ABORTREQ only
while BUSY = 1 (R45), and LMEM's canonical form inside its addresses. -/
def Obligations.EveryStepKeepsTheInvariant : Prop :=
  ∀ s t : State, Sound s → step s = .next t → Sound t

/-- The state after reset meets the invariant. -/
def Obligations.ResetMeetsTheInvariant : Prop := Sound State.reset

/-- R276 over all commands: a command that raises writes no general register and no LMEM byte, keeps pc and CMDCNT,
leaves DONE, and records ERRPC and a code. -/
def Obligations.ErrorsArePrecise : Prop :=
  ∀ (i : Instr) (s t : State), s.err = false → exec i s = .next t → t.err = true →
    ∃ e info, e ≠ .none ∧ e ≠ .aborted ∧ Raises (exec i s) s e info

/-- R23 and R41 over all commands: a command that completes moves pc to the next command's address and counts one, HALT
included. -/
def Obligations.CompletedCommandsAdvanceAndCount : Prop :=
  ∀ (i : Instr) (s t : State), s.err = false → exec i s = .next t → t.err = false →
    t.pc = nextPc i s ∧ t.cmdCnt = s.cmdCnt + 1

/-- R25 over all commands: a command that completes changes no STATUS bit, no error record and no enable, except that HALT
clears BUSY and ABORTREQ and sets DONE. -/
def Obligations.CompletedCommandsKeepStatus : Prop :=
  ∀ (i : Instr) (s t : State), s.err = false → exec i s = .next t → t.err = false →
    (i ≠ .halt → SameControl s t) ∧
    (i = .halt → t.busy = false ∧ t.done = true ∧ t.abortReq = false ∧ t.errCode = s.errCode ∧ t.errPC = s.errPC ∧
      t.errInfo = s.errInfo ∧ SameHostBits s t ∧ SameModelFields s t)

/-- The frame of all commands: whatever a command answers, the registers it does not name as a destination and the bytes
outside its store range are as before. -/
def Obligations.CommandsChangeOnlyTheirDestinations : Prop :=
  ∀ (i : Instr) (s t : State), exec i s = .next t →
    (∀ r, r ∉ destRegs i → readReg t r = readReg s r) ∧
    ∀ x, x < (storeRange i s).1 ∨ (storeRange i s).1 + (storeRange i s).2 ≤ x → byteAt t x = byteAt s x

/-- R231: from an aligned pc every command, branches included, leaves an aligned pc. -/
def Obligations.NoCommandMisalignsPc : Prop :=
  ∀ (i : Instr) (s t : State), s.pc.toNat % 4 = 0 → exec i s = .next t → t.pc.toNat % 4 = 0

/-- R300: the engine step that ends a run leaves it halted, faulted with a code in 0x01 to 0x0D, or aborted with code 0x0E.
`u` is the state the engine finds at its step (log entry 7). -/
def Obligations.RunsEndHaltedFaultedOrAborted : Prop :=
  ∀ s u t : State, EngineTurn s u → Sound u → u.busy = true → step s = .next t → t.busy = false →
    (t.done = true ∧ t.err = false ∧ errCodeByte t.errCode = 0x00) ∨
    (t.err = true ∧ t.done = false ∧ u.abortReq = false ∧ 0x01 ≤ (errCodeByte t.errCode).toNat ∧
      (errCodeByte t.errCode).toNat ≤ 0x0D) ∨
    (t.err = true ∧ t.done = false ∧ u.abortReq = true ∧ errCodeByte t.errCode = 0x0E)

/-- R26 and R313: an idle engine becomes busy only by a host START. -/
def Obligations.OnlyStartWakesTheEngine : Prop :=
  ∀ s t : State, s.busy = false → step s = .next t → t.busy = true →
    ∃ v rest, s.turns = .host (regWrite 0x004 v) :: rest ∧ v.getLsbD 0 = true

/-- The model's choice (log entry 8): while BUSY = 0 the engine's turn passes and nothing else changes. -/
def Obligations.IdleEngineTurnChangesNothing : Prop :=
  ∀ s : State, s.busy = false →
    (s.turns = [] → step s = .next s) ∧ ∀ rest, s.turns = .engine :: rest → step s = .next { s with turns := rest }

/-! ## Control -/

/-- HALT (R232, R282): its word, and the stop, whatever ABORTREQ is. -/
def Obligations.HaltStopsTheEngine : Prop :=
  EncodedAs .halt 0x02000000 ∧
  ∀ s : State, exec .halt s =
    .next { s with pc := s.pc + 4, cmdCnt := s.cmdCnt + 1, busy := false, done := true, abortReq := false }

/-- NOP, J, BZ and BNZ (R230, R233, R234, R235): their words; the target is pc plus four times the signed offset, as
integers modulo 2^32; and BZ and BNZ test all 32 bits. -/
def Obligations.NopAndBranchesSetPc : Prop :=
  ∀ (s : State) (imm : Imm16) (a : Reg),
    let target : Word := BitVec.ofInt 32 (s.pc.toNat + imm.toInt * 4)
    EncodedAs .nop 0x01000000 ∧ EncodedAs (.j imm) (0x03#8 ++ 0#8 ++ imm) ∧
    EncodedAs (.bz a imm) (0x04#8 ++ 0#4 ++ a ++ imm) ∧ EncodedAs (.bnz a imm) (0x05#8 ++ 0#4 ++ a ++ imm) ∧
    Writes .nop s [] ∧
    Completes (.j imm) s [] 0 [] target ∧
    Completes (.bz a imm) s [] 0 [] (if (readReg s a).toNat = 0 then target else s.pc + 4) ∧
    Completes (.bnz a imm) s [] 0 [] (if (readReg s a).toNat ≠ 0 then target else s.pc + 4)

/-! ## Integer, load and store -/

/-- LI and LUI (R250, R251): their words, and the value as a number. -/
def Obligations.LiAndLuiBuildConstants : Prop :=
  ∀ (s : State) (d : Reg) (imm : Imm16),
    EncodedAs (.li d imm) (0x10#8 ++ d ++ 0#4 ++ imm) ∧ EncodedAs (.lui d imm) (0x11#8 ++ d ++ 0#4 ++ imm) ∧
    Writes (.li d imm) s [(d, BitVec.ofNat 32 imm.toNat)] ∧
    Writes (.lui d imm) s [(d, BitVec.ofNat 32 (imm.toNat * 65536 + (readReg s d).toNat % 65536))]

/-- ADDI, ADD and SUB (R252, R253, R254): their words, and the results as integers modulo 2^32; read as signed or as
unsigned, the operands give the same bits (a sentence of R255). -/
def Obligations.IntegerCommandsWrapModulo2To32 : Prop :=
  ∀ (s : State) (d a b : Reg) (imm : Imm16),
    EncodedAs (.addi d a imm) (0x12#8 ++ d ++ a ++ imm) ∧ EncodedAs (.add d a b) (0x13#8 ++ d ++ a ++ b ++ 0#12) ∧
    EncodedAs (.sub d a b) (0x14#8 ++ d ++ a ++ b ++ 0#12) ∧
    Writes (.addi d a imm) s [(d, BitVec.ofInt 32 ((readReg s a).toNat + imm.toInt))] ∧
    Writes (.add d a b) s [(d, BitVec.ofNat 32 ((readReg s a).toNat + (readReg s b).toNat))] ∧
    Writes (.sub d a b) s [(d, BitVec.ofInt 32 ((readReg s a).toNat - (readReg s b).toNat))] ∧
    BitVec.ofInt 32 ((readReg s a).toInt + imm.toInt) = BitVec.ofInt 32 ((readReg s a).toNat + imm.toInt) ∧
    BitVec.ofInt 32 ((readReg s a).toInt + (readReg s b).toInt) =
      BitVec.ofNat 32 ((readReg s a).toNat + (readReg s b).toNat) ∧
    BitVec.ofInt 32 ((readReg s a).toInt - (readReg s b).toInt) =
      BitVec.ofInt 32 ((readReg s a).toNat - (readReg s b).toNat)

/-- LDB and STB (R256, R257): their words; the byte is loaded zero-extended, the low byte is stored, at base plus signed
displacement modulo 2^32; and an address beyond LMEM raises MEM_RANGE. -/
def Obligations.LdbAndStbAccessOneByte : Prop :=
  ∀ (s : State) (d a : Reg) (imm : Imm16),
    let ea : Word := BitVec.ofInt 32 ((readReg s a).toNat + imm.toInt)
    EncodedAs (.ldb d a imm) (0x20#8 ++ d ++ a ++ imm) ∧ EncodedAs (.stb d a imm) (0x21#8 ++ d ++ a ++ imm) ∧
    (ea.toNat < Config.lmemSize → Writes (.ldb d a imm) s [(d, BitVec.ofNat 32 (byteAt s ea.toNat).toNat)] ∧
      Completes (.stb d a imm) s [] ea.toNat [lowByte s d] (s.pc + 4)) ∧
    (Config.lmemSize ≤ ea.toNat → Raises (exec (.ldb d a imm) s) s .memRange ea ∧
      Raises (exec (.stb d a imm) s) s .memRange ea)

/-- R79: a byte stored into the next command's word is the byte that the next fetch reads there. -/
def Obligations.NextFetchSeesAStore : Prop :=
  ∀ (s t : State) (d a : Reg) (imm : Imm16) (k : Nat), exec (.stb d a imm) s = .next t → s.err = false → t.err = false →
    k < 4 → (effectiveAddress s a imm).toNat = t.pc.toNat + k →
    (fetchWord t).extractLsb' (8 * k) 8 = lowByte s d

/-! ## Field -/

/-- GADD is XOR, and GMUL is multiplication of polynomials modulo 0x11B, each of the low bytes (R120, R126, R127). That the
ROM tables are those of this field is the spec's general knowledge (R121, R131, I1; log entry 4). -/
def Obligations.GaddAndGmulAreTheFieldOperations : Prop :=
  ∀ (s : State) (d a b : Reg),
    EncodedAs (.gadd d a b) (0x30#8 ++ d ++ a ++ b ++ 0#12) ∧ EncodedAs (.gmul d a b) (0x31#8 ++ d ++ a ++ b ++ 0#12) ∧
    Writes (.gadd d a b) s [(d, BitVec.ofNat 32 ((lowByte s a).toNat ^^^ (lowByte s b).toNat))] ∧
    Writes (.gmul d a b) s [(d, BitVec.ofNat 32 (polyMul (lowByte s a) (lowByte s b)).toNat)]

/-- GDIV (R128): with a non-zero divisor the quotient q is the byte with q times divisor = dividend; with a zero divisor
byte, DIV_ZERO carries the dividend byte. The field is that of R131 (log entry 4). -/
def Obligations.GdivIsTheInverseOfMultiplication : Prop :=
  ∀ (s : State) (d a b : Reg),
    EncodedAs (.gdiv d a b) (0x32#8 ++ d ++ a ++ b ++ 0#12) ∧
    (lowByte s b ≠ 0 → ∃ q : Byte, polyMul q (lowByte s b) = lowByte s a ∧
      Writes (.gdiv d a b) s [(d, BitVec.ofNat 32 q.toNat)]) ∧
    (lowByte s b = 0 → Raises (exec (.gdiv d a b) s) s .divZero (BitVec.ofNat 32 (lowByte s a).toNat))

/-- GEXP gives the power of 0x03 and GLOG the exponent in 0..254; GLOG of 0 raises LOG_ZERO (R129, R130). That the tables
are the powers and logarithms of 0x03 is the spec's general knowledge (R121, R122, I1; log entry 4). -/
def Obligations.GexpAndGlogArePowersOfThree : Prop :=
  ∀ (s : State) (d a : Reg),
    EncodedAs (.gexp d a) (0x33#8 ++ d ++ a ++ 0#16) ∧ EncodedAs (.glog d a) (0x34#8 ++ d ++ a ++ 0#16) ∧
    Writes (.gexp d a) s [(d, BitVec.ofNat 32 (polyPow 0x03 (lowByte s a).toNat).toNat)] ∧
    (lowByte s a ≠ 0 → ∃ i : Nat, i ≤ 254 ∧ polyPow 0x03 i = lowByte s a ∧
      Writes (.glog d a) s [(d, BitVec.ofNat 32 i)]) ∧
    (lowByte s a = 0 → Raises (exec (.glog d a) s) s .logZero 0)

/-- R131: the laws of the field that the two tables define. That the ROM tables are these is the spec's general knowledge
(R121, R122, I1; log entry 4). -/
def Obligations.TablesDefineTheField : Prop :=
  (∀ x y, gmul x y = polyMul x y) ∧
  (∀ x y, gmul x y = gmul y x) ∧ (∀ x y z, gmul (gmul x y) z = gmul x (gmul y z)) ∧
  (∀ x, gmul 1 x = x) ∧ (∀ x, gmul 0 x = 0) ∧
  (∀ x y z, gmul x (gadd y z) = gadd (gmul x y) (gmul x z)) ∧
  (∀ x y, y ≠ 0 → ∃ q, gdiv x y = some q ∧ gmul q y = x) ∧
  (∀ x y, y ≠ 0 → gdiv (gmul x y) y = some x) ∧
  (∀ x, x ≠ 0 → expROM (logROM x).toNat = x) ∧ (∀ i, i ≤ 254 → (logROM (expROM i)).toNat = i)

/-! ## Polynomial and interpolation -/

/-- PEVAL (R200): its word, the errors in their order, and the value of the loop, which PolynomialFormsAgree compares with
the sum of powers. -/
def Obligations.PevalEvaluatesThePolynomial : Prop :=
  ∀ (s : State) (d a b c : Reg),
    let base := readReg s b
    let n := readReg s c
    EncodedAs (.peval d a b c) (0x40#8 ++ d ++ a ++ b ++ c ++ 0#8) ∧
    (¬ CountInRange n → Raises (exec (.peval d a b c) s) s .badCount n) ∧
    (CountInRange n → ¬ InLmem base n.toNat → Raises (exec (.peval d a b c) s) s .memRange base) ∧
    (CountInRange n → InLmem base n.toNat →
      Writes (.peval d a b c) s
        [(d, BitVec.ofNat 32 (polyEval (readBytes s base.toNat n.toNat) (lowByte s a)).toNat)])

/-- R202: the loop, the sum of powers and Horner's form agree on every coefficient sequence and point. The sum and Horner's
form are written with multiplication modulo 0x11B, so this rests on the tables of log entry 4 (I1, I4). -/
def Obligations.PolynomialFormsAgree : Prop :=
  ∀ (C : List Byte) (X : Byte), polyEval C X = powerSum X 0 C ∧ polyEval C X = horner X C

/-- R211: idxcheck passes exactly when the indices are non-zero and distinct; it reports the first failing position, with
the least duplicate; and when it passes every divisor of the basis is non-zero. -/
def Obligations.IndexCheckReportsTheFirstFailure : Prop :=
  ∀ U : List Byte,
    let good (j : Nat) : Prop := U.getD j 0 ≠ 0 ∧ ∀ i, i < j → U.getD i 0 ≠ U.getD j 0
    (indexError U = none ↔ ∀ j, j < U.length → good j) ∧
    (∀ j, j < U.length → (∀ j', j' < j → good j') → U.getD j 0 = 0 → indexError U = some (BitVec.ofNat 32 j)) ∧
    (∀ i j, i < j → j < U.length → (∀ j', j' < j → good j') → U.getD j 0 ≠ 0 → U.getD i 0 = U.getD j 0 →
      (∀ i', i' < i → U.getD i' 0 ≠ U.getD j 0) →
      indexError U = some (0x00010000#32 ||| (BitVec.ofNat 32 i <<< 8) ||| BitVec.ofNat 32 j)) ∧
    (indexError U = none → ∀ i j, i < U.length → j < U.length → i ≠ j → gadd (U.getD j 0) (U.getD i 0) ≠ 0)

/-- LAGR (R213): its word, the errors in their order, and the value of R210's formula. -/
def Obligations.LagrInterpolatesAtZero : Prop :=
  ∀ (s : State) (d a b c e : Reg),
    let ua := readReg s a
    let n := readReg s c
    let va := element (readReg s b) (readReg s e)
    let U := readBytes s ua.toNat n.toNat
    let o := exec (.lagr d a b c e) s
    EncodedAs (.lagr d a b c e) (0x41#8 ++ d ++ a ++ b ++ c ++ e ++ 0#4) ∧
    (¬ CountInRange n → Raises o s .badCount n) ∧
    (CountInRange n → ¬ InLmem ua n.toNat → Raises o s .memRange ua) ∧
    (CountInRange n → InLmem ua n.toNat → ∀ i, i < n.toNat → Config.lmemSize ≤ (va i).toNat →
      (∀ i', i' < i → (va i').toNat < Config.lmemSize) → Raises o s .memRange (va i)) ∧
    (CountInRange n → InLmem ua n.toNat → (∀ i, i < n.toNat → (va i).toNat < Config.lmemSize) →
      ∀ info, indexError U = some info → Raises o s .badIndex info) ∧
    (CountInRange n → InLmem ua n.toNat → (∀ i, i < n.toNat → (va i).toNat < Config.lmemSize) → indexError U = none →
      Writes (.lagr d a b c e) s
        [(d, BitVec.ofNat 32 (interp U (elementBytes s (readReg s b) (readReg s e) n.toNat)).toNat)])

/-- LBASIS (R214): its word, the errors in their order, and the n bytes stored. -/
def Obligations.LbasisStoresTheBasis : Prop :=
  ∀ (s : State) (d a c : Reg),
    let ua := readReg s a
    let dst := readReg s d
    let n := readReg s c
    let U := readBytes s ua.toNat n.toNat
    let o := exec (.lbasis d a c) s
    EncodedAs (.lbasis d a c) (0x42#8 ++ d ++ a ++ 0#4 ++ c ++ 0#8) ∧
    (¬ CountInRange n → Raises o s .badCount n) ∧
    (CountInRange n → ¬ InLmem ua n.toNat → Raises o s .memRange ua) ∧
    (CountInRange n → InLmem ua n.toNat → ¬ InLmem dst n.toNat → Raises o s .memRange dst) ∧
    (CountInRange n → InLmem ua n.toNat → InLmem dst n.toNat → ∀ info, indexError U = some info →
      Raises o s .badIndex info) ∧
    (CountInRange n → InLmem ua n.toNat → InLmem dst n.toNat → indexError U = none →
      Completes (.lbasis d a c) s [] dst.toNat (basis U) (s.pc + 4) ∧ (basis U).length = n.toNat)

/-- GDOT (R215): its word, the errors in their order, and the sum of the products. -/
def Obligations.GdotSumsTheProducts : Prop :=
  ∀ (s : State) (d a b c e : Reg),
    let aa := readReg s a
    let n := readReg s c
    let ba := element (readReg s b) (readReg s e)
    let o := exec (.gdot d a b c e) s
    EncodedAs (.gdot d a b c e) (0x43#8 ++ d ++ a ++ b ++ c ++ e ++ 0#4) ∧
    (¬ CountInRange n → Raises o s .badCount n) ∧
    (CountInRange n → ¬ InLmem aa n.toNat → Raises o s .memRange aa) ∧
    (CountInRange n → InLmem aa n.toNat → ∀ i, i < n.toNat → Config.lmemSize ≤ (ba i).toNat →
      (∀ i', i' < i → (ba i').toNat < Config.lmemSize) → Raises o s .memRange (ba i)) ∧
    (CountInRange n → InLmem aa n.toNat → (∀ i, i < n.toNat → (ba i).toNat < Config.lmemSize) →
      Writes (.gdot d a b c e) s
        [(d, BitVec.ofNat 32
          ((List.range n.toNat).foldl
            (fun y i => y ^^^ gmul (byteAt s (aa.toNat + i)) (byteAt s (ba i).toNat)) 0x00).toNat)])

/-- R216: GDOT on the basis that LBASIS stored gives the value of LAGR. `s` is the state in which LBASIS ran, `u` a later
one that still holds the basis, and the V elements, which are in range, hold the same bytes in both. -/
def Obligations.LbasisThenGdotIsLagr : Prop :=
  ∀ (s t u : State) (p a b c d e a' b' c' d' e' : Reg),
    s.err = false → exec (.lbasis p a c) s = .next t → t.err = false →
    readReg u a' = readReg s p → readReg u c' = readReg s c → readReg u b' = readReg s b →
    readReg u e' = readReg s e →
    (∀ k, k < (readReg s c).toNat → byteAt u ((readReg s p).toNat + k) = byteAt t ((readReg s p).toNat + k)) →
    (∀ k, k < (readReg s c).toNat → (element (readReg s b) (readReg s e) k).toNat < Config.lmemSize ∧
      byteAt u (element (readReg s b) (readReg s e) k).toNat = byteAt s (element (readReg s b) (readReg s e) k).toNat) →
    ∃ v : Word, Writes (.gdot d' a' b' c' e') u [(d', v)] ∧ Writes (.lagr d a b c e) s [(d, v)]

/-- R217: from the values of a polynomial of degree below n at n distinct non-zero points, interpolation at 0 gives
its constant coefficient. It rests on the tables of log entry 4. -/
def Obligations.InterpolationRecoversTheSecret : Prop :=
  ∀ (U C : List Byte) (secret : Byte), (∀ u ∈ U, u ≠ 0) → U.Nodup → U.length ≤ 255 →
    (secret :: C).length ≤ U.length →
    interp U (U.map (polyEval (secret :: C))) = secret

/-! ## Codec -/

/-- IDSET, by its ranges and its 65 members (R153); and HPACK (R152): its word, the errors in their order, and the 20 bytes
byte by byte. -/
def Obligations.HpackPacksTheHeader : Prop :=
  (∀ b : Byte, inIdset b = true ↔ InIdset b) ∧
  ((List.range 256).filter (fun n => inIdset (BitVec.ofNat 8 n))).length = 65 ∧
  ∀ (s : State) (d a b c : Reg),
    let dst := readReg s d
    let ida := readReg s a
    let idl := readReg s b
    let fl := readReg s c
    let id := readBytes s ida.toNat idl.toNat
    let o := exec (.hpack d a b c) s
    let hash : Byte := fl.extractLsb' 0 8
    EncodedAs (.hpack d a b c) (0x50#8 ++ d ++ a ++ b ++ c ++ 0#8) ∧
    (16 < idl.toNat → Raises o s .badLength idl) ∧
    (idl.toNat ≤ 16 → 2 < hash.toNat → Raises o s .badHash (BitVec.ofNat 32 hash.toNat)) ∧
    (idl.toNat ≤ 16 → hash.toNat ≤ 2 → ¬ InLmem ida idl.toNat → Raises o s .memRange ida) ∧
    (idl.toNat ≤ 16 → hash.toNat ≤ 2 → InLmem ida idl.toNat → ¬ InLmem dst 20 → Raises o s .memRange dst) ∧
    (idl.toNat ≤ 16 → hash.toNat ≤ 2 → InLmem ida idl.toNat → InLmem dst 20 → ∀ k, k < idl.toNat →
      inIdset (id.getD k 0) = false → (∀ k', k' < k → inIdset (id.getD k' 0) = true) →
      Raises o s .badIdent (BitVec.ofNat 32 k)) ∧
    (idl.toNat ≤ 16 → hash.toNat ≤ 2 → InLmem ida idl.toNat → InLmem dst 20 →
      (∀ k, k < idl.toNat → inIdset (id.getD k 0) = true) →
      ∃ hdr : List Byte, hdr.length = 20 ∧ (∀ k, k < idl.toNat → hdr.getD k 0 = byteAt s (ida.toNat + k)) ∧
        (∀ k, idl.toNat ≤ k → k < 16 → hdr.getD k 0 = 0x00) ∧ hdr.getD 16 0 = hash ∧
        hdr.getD 17 0 = fl.extractLsb' 8 8 ∧ hdr.getD 18 0 = fl.extractLsb' 24 8 ∧ hdr.getD 19 0 = fl.extractLsb' 16 8 ∧
        Completes (.hpack d a b c) s [] dst.toNat hdr (s.pc + 4))

/-- HUNPACK (R155) with d ≠ b: its word, the errors in their order, and the two registers; and R154: k is the largest
length up to 16 whose last byte is non-zero. -/
def Obligations.HunpackUnpacksTheHeader : Prop :=
  ∀ (s : State) (d a b : Reg), d ≠ b →
    let src := readReg s a
    let h (k : Nat) : Byte := byteAt s (src.toNat + k)
    let o := exec (.hunpack d a b) s
    EncodedAs (.hunpack d a b) (0x51#8 ++ d ++ a ++ b ++ 0#12) ∧
    (¬ InLmem src 20 → Raises o s .memRange src) ∧
    (InLmem src 20 → 2 < (h 16).toNat → Raises o s .badHash (BitVec.ofNat 32 (h 16).toNat)) ∧
    (InLmem src 20 → (h 16).toNat ≤ 2 → ∃ k, k ≤ 16 ∧ (k = 0 ∨ h (k - 1) ≠ 0) ∧ (∀ j, k ≤ j → j < 16 → h j = 0) ∧
      Writes (.hunpack d a b) s [(d, h 18 ++ h 19 ++ h 17 ++ h 16), (b, BitVec.ofNat 32 k)])

/-- HUNPACK of a header that HPACK wrote gives back the fields word and the identifier length (R152, R155; an identifier
has no 0x00, R153). `u` is any later state that still holds the header. -/
def Obligations.HunpackOfHpackGivesTheFields : Prop :=
  ∀ (s t u : State) (d a b c d' a' b' : Reg), s.err = false → exec (.hpack d a b c) s = .next t → t.err = false →
    d' ≠ b' → readReg u a' = readReg s d →
    (∀ k, k < 20 → byteAt u ((readReg s d).toNat + k) = byteAt t ((readReg s d).toNat + k)) →
    Writes (.hunpack d' a' b') u [(d', readReg s c), (b', readReg s b)]

/-- R161: the encoding group by group. -/
def Obligations.Base64EncodesByGroups : Prop :=
  ∀ (s : List Byte) (pad : Bool),
    let n := s.length
    let out := b64enc pad s
    (∀ g, g < n / 3 →
      let v : BitVec 24 := s.getD (3 * g) 0 ++ s.getD (3 * g + 1) 0 ++ s.getD (3 * g + 2) 0
      (out.drop (4 * g)).take 4 =
        [b64Char (v.extractLsb' 18 6), b64Char (v.extractLsb' 12 6), b64Char (v.extractLsb' 6 6),
          b64Char (v.extractLsb' 0 6)]) ∧
    (n % 3 = 0 → out.drop (4 * (n / 3)) = []) ∧
    (n % 3 = 1 →
      let v : BitVec 24 := s.getD (n - 1) 0 ++ 0x00#8 ++ 0x00#8
      out.drop (4 * (n / 3)) =
        [b64Char (v.extractLsb' 18 6), b64Char (v.extractLsb' 12 6)] ++ (if pad then [0x3D, 0x3D] else [])) ∧
    (n % 3 = 2 →
      let v : BitVec 24 := s.getD (n - 2) 0 ++ s.getD (n - 1) 0 ++ 0x00#8
      out.drop (4 * (n / 3)) =
        [b64Char (v.extractLsb' 18 6), b64Char (v.extractLsb' 12 6), b64Char (v.extractLsb' 6 6)] ++
          (if pad then [0x3D] else []))

/-- R160: the alphabet's ranges, `val` as its inverse, and the pad, the spec's general knowledge (I3; log entry 18). R164:
decoding an encoding gives the bytes back, padded or not, and an accepted input with m alphabet bytes gives
3 * (m div 4) + u bytes. -/
def Obligations.Base64RoundTripAndLength : Prop :=
  (∀ v : BitVec 6,
    (v.toNat ≤ 25 → (b64Char v).toNat = 0x41 + v.toNat) ∧
    (26 ≤ v.toNat → v.toNat ≤ 51 → (b64Char v).toNat = 0x61 + (v.toNat - 26)) ∧
    (52 ≤ v.toNat → v.toNat ≤ 61 → (b64Char v).toNat = 0x30 + (v.toNat - 52)) ∧
    (v.toNat = 62 → b64Char v = 0x2D) ∧ (v.toNat = 63 → b64Char v = 0x5F)) ∧
  (∀ (ch : Byte) (v : BitVec 6), b64Val ch = some v ↔ b64Char v = ch) ∧
  (∀ ch : Byte, isB64 ch = true ↔ ∃ v, b64Char v = ch) ∧ padChar = 0x3D ∧
  (∀ (s : List Byte) (pad : Bool), b64dec (b64enc pad s) = .ok s) ∧
  (∀ (s body out : List Byte) (p : Nat), AlphabetThenPads s body p → b64dec s = .ok out →
    out.length = 3 * (body.length / 4) +
      (if body.length % 4 = 2 then 1 else if body.length % 4 = 3 then 2 else 0))

/-- R163: the inputs that the decoder accepts, exactly, over the alphabet of log entry 18. -/
def Obligations.Base64AcceptsExactlyTheCanonicalForms : Prop :=
  ∀ s : List Byte,
    (∃ out, b64dec s = .ok out) ↔
      ∃ (body : List Byte) (p : Nat), AlphabetThenPads s body p ∧ p ≤ 2 ∧ body.length % 4 ≠ 1 ∧
        (0 < p → s.length % 4 = 0) ∧
        (body.length % 4 = 2 → ∀ v, b64Val (body.getLastD 0) = some v → v &&& 0x0F = 0) ∧
        (body.length % 4 = 3 → ∀ v, b64Val (body.getLastD 0) = some v → v &&& 0x03 = 0)

/-- R163's offsets: with the input's trailing pads split off, the first failing check of its order gives the offset.
The alphabet is that of log entry 18. -/
def Obligations.Base64RejectsAtTheFirstFailure : Prop :=
  ∀ (s body : List Byte) (p : Nat), s = body ++ List.replicate p padChar → body.getLast? ≠ some padChar →
    let m := body.length
    let n := s.length
    let last : BitVec 6 := (b64Val (body.getLastD 0)).getD 0
    (∀ k, k < m → isB64 (body.getD k 0) = false → (∀ k', k' < k → isB64 (body.getD k' 0) = true) →
      b64dec s = .error k) ∧
    ((∀ ch ∈ body, isB64 ch = true) →
      (2 < p → b64dec s = .error (m + 2)) ∧
      (p ≤ 2 → m % 4 = 1 → b64dec s = .error n) ∧
      (p ≤ 2 → m % 4 ≠ 1 → 0 < p → n % 4 ≠ 0 → b64dec s = .error n) ∧
      (p ≤ 2 → (p = 0 ∨ n % 4 = 0) → m % 4 = 2 → last &&& 0x0F ≠ 0 → b64dec s = .error (m - 1)) ∧
      (p ≤ 2 → (p = 0 ∨ n % 4 = 0) → m % 4 = 3 → last &&& 0x03 ≠ 0 → b64dec s = .error (m - 1)))

/-- B64E (R165): its word, the errors in their order, and the text stored. -/
def Obligations.B64eEncodesARange : Prop :=
  ∀ (s : State) (d a b c : Reg) (nopad : Bool),
    let src := readReg s a
    let dst := readReg s d
    let n := (readReg s b).toNat
    let out := b64enc (!nopad) (readBytes s src.toNat n)
    let o := exec (.b64e d a b c nopad) s
    EncodedAs (.b64e d a b c nopad) (0x52#8 ++ d ++ a ++ b ++ c ++ 0#7 ++ BitVec.ofBool nopad) ∧
    (¬ InLmem src n → Raises o s .memRange src) ∧
    (InLmem src n → ¬ InLmem dst (b64len n (!nopad)) → Raises o s .memRange dst) ∧
    (InLmem src n → InLmem dst (b64len n (!nopad)) → out.length = b64len n (!nopad) ∧
      Completes (.b64e d a b c nopad) s [(c, BitVec.ofNat 32 out.length)] dst.toNat out (s.pc + 4))

/-- B64D (R169): its word, the errors in their order, and the bytes stored. -/
def Obligations.B64dDecodesARange : Prop :=
  ∀ (s : State) (d a b c : Reg),
    let src := readReg s a
    let dst := readReg s d
    let n := (readReg s b).toNat
    let r := b64dec (readBytes s src.toNat n)
    let o := exec (.b64d d a b c) s
    EncodedAs (.b64d d a b c) (0x53#8 ++ d ++ a ++ b ++ c ++ 0#8) ∧
    (¬ InLmem src n → Raises o s .memRange src) ∧
    (InLmem src n → ∀ k, r = .error k → Raises o s .badBase64 (BitVec.ofNat 32 k)) ∧
    (InLmem src n → ∀ out, r = .ok out → ¬ InLmem dst out.length → Raises o s .memRange dst) ∧
    (InLmem src n → ∀ out, r = .ok out → InLmem dst out.length →
      Completes (.b64d d a b c) s [(c, BitVec.ofNat 32 out.length)] dst.toNat out (s.pc + 4))

/-- `dec(t)`, the one to three digits without a leading zero that write t (R170); and HENC (R176): its word, the errors in
their order, the text stored, and the output length of its corner cases. -/
def Obligations.HencEncodesAShare : Prop :=
  (∀ t : Byte, decimalValue (decimal t) = t.toNat ∧ 1 ≤ (decimal t).length ∧ (decimal t).length ≤ 3 ∧
    (∀ ch ∈ decimal t, 0x30 ≤ ch.toNat ∧ ch.toNat ≤ 0x39) ∧ (1 < (decimal t).length → (decimal t).getD 0 0 ≠ 0x30)) ∧
  ∀ (s : State) (d a b c : Reg) (nopad : Bool),
    let src := readReg s a
    let dst := readReg s d
    let n := readReg s b
    let share := readBytes s src.toNat n.toNat
    let k := identLength share
    let out := [0x74, 0x73, 0x73, 0x7E, 0x76, 0x31, 0x7E] ++ share.take k ++ [0x7E] ++ decimal (share.getD 17 0) ++
      [0x7E] ++ b64enc (!nopad) share
    let o := exec (.henc d a b c nopad) s
    EncodedAs (.henc d a b c nopad) (0x54#8 ++ d ++ a ++ b ++ c ++ 0#7 ++ BitVec.ofBool nopad) ∧
    (n.toNat < 20 → Raises o s .badLength n) ∧
    (20 ≤ n.toNat → ¬ InLmem src n.toNat → Raises o s .memRange src) ∧
    (20 ≤ n.toNat → InLmem src n.toNat → ∀ q, q < k → inIdset (share.getD q 0) = false →
      (∀ q', q' < q → inIdset (share.getD q' 0) = true) → Raises o s .badIdent (BitVec.ofNat 32 q)) ∧
    (20 ≤ n.toNat → InLmem src n.toNat → IdentOK share → ¬ InLmem dst out.length → Raises o s .memRange dst) ∧
    (20 ≤ n.toNat → InLmem src n.toNat → IdentOK share → InLmem dst out.length →
      Completes (.henc d a b c nopad) s [(c, BitVec.ofNat 32 out.length)] dst.toNat out (s.pc + 4) ∧
      out.length = 7 + k + 1 + (decimal (share.getD 17 0)).length + 1 + b64len n.toNat (!nopad))

/-- HDEC (R180): its word, the errors in their order, both offsets being offsets in the text, and the bytes stored. -/
def Obligations.HdecDecodesAText : Prop :=
  ∀ (s : State) (d a b c : Reg),
    let src := readReg s a
    let dst := readReg s d
    let n := (readReg s b).toNat
    let text := readBytes s src.toNat n
    let o := exec (.hdec d a b c) s
    EncodedAs (.hdec d a b c) (0x55#8 ++ d ++ a ++ b ++ c ++ 0#8) ∧
    (¬ InLmem src n → Raises o s .memRange src) ∧
    (InLmem src n → ∀ k, hparse text = .error k → Raises o s .badHuman (BitVec.ofNat 32 k)) ∧
    (InLmem src n → ∀ q0, hparse text = .ok q0 → ∀ k, b64dec (text.drop q0) = .error k →
      Raises o s .badBase64 (BitVec.ofNat 32 (q0 + k))) ∧
    (InLmem src n → ∀ q0, hparse text = .ok q0 → ∀ out, b64dec (text.drop q0) = .ok out → ¬ InLmem dst out.length →
      Raises o s .memRange dst) ∧
    (InLmem src n → ∀ q0, hparse text = .ok q0 → ∀ out, b64dec (text.drop q0) = .ok out → InLmem dst out.length →
      Completes (.hdec d a b c) s [(c, BitVec.ofNat 32 out.length)] dst.toNat out (s.pc + 4))

/-- R172: hparse accepts exactly the anchored grammar, and answers the offset of the Base64 part. -/
def Obligations.HumanPatternAcceptsExactlyTheGrammar : Prop :=
  ∀ (s : List Byte) (q0 : Nat),
    hparse s = .ok q0 ↔
      ∃ (ident digits body : List Byte) (p : Nat),
        s = [0x74, 0x73, 0x73, 0x7E, 0x76, 0x31, 0x7E] ++ ident ++ [0x7E] ++ digits ++ [0x7E] ++ body ++
          List.replicate p 0x3D ∧
        ident.length ≤ 16 ∧ (∀ b ∈ ident, inIdset b = true) ∧ 1 ≤ digits.length ∧ digits.length ≤ 3 ∧
        (∀ b ∈ digits, 0x30 ≤ b.toNat ∧ b.toNat ≤ 0x39) ∧ 1 ≤ body.length ∧ (∀ b ∈ body, isB64 b = true) ∧ p ≤ 2 ∧
        q0 = 7 + ident.length + 1 + digits.length + 1

/-- R172's offsets: an input that the pattern rejects is rejected at the first byte at which the pattern fails, or at the
input's length if it ends early: what stands before that byte can be completed to an accepted text, and with it cannot. -/
def Obligations.HumanPatternFailsAtTheFirstBadByte : Prop :=
  ∀ (s : List Byte) (k : Nat),
    let completable (t : List Byte) : Prop := ∃ (u : List Byte) (q0 : Nat), hparse (t ++ u) = .ok q0
    hparse s = .error k ↔
      (∀ q0, hparse s ≠ .ok q0) ∧ k ≤ s.length ∧ completable (s.take k) ∧
        (k = s.length ∨ ¬ completable (s.take (k + 1)))

/-- R181: HENC and then HDEC give the share back exactly, with and without NOPAD. `u` is any later state that still holds
the text; HDEC's registers name the text, its length and a destination in LMEM. The alphabet is that of log entry 18. -/
def Obligations.HdecOfHencGivesTheShare : Prop :=
  ∀ (s t u : State) (d a b c d' a' b' c' : Reg) (nopad : Bool),
    s.err = false → exec (.henc d a b c nopad) s = .next t → t.err = false →
    readReg u a' = readReg s d → readReg u b' = readReg t c →
    (∀ k, k < (readReg t c).toNat → byteAt u ((readReg s d).toNat + k) = byteAt t ((readReg s d).toNat + k)) →
    InLmem (readReg u d') (readReg s b).toNat →
    Completes (.hdec d' a' b' c') u [(c', readReg s b)] (readReg u d').toNat
      (readBytes s (readReg s a).toNat (readReg s b).toNat) (u.pc + 4)

/-! ## Host interface -/

/-- R73: an access gets a bus error exactly in the three cases, and then only the response changes; any other access, a
dropped one too, gets a normal response. -/
def Obligations.BusErrorsExactly : Prop :=
  ∀ (s : State) (acc : Access),
    (BusErrorAccess acc → hostAccess acc s = { s with response := .busError }) ∧
    (¬ BusErrorAccess acc →
      (∀ v, acc.op = .write v → (hostAccess acc s).response = .written) ∧
      (acc.op = .read → ∃ v, (hostAccess acc s).response = .data v))

/-- R32: host accesses while BUSY = 1. Every read changes nothing but the model's counter of draws, which is the model's
choice (log entry 2); a free read's value is some word; and STATUS reads with bit 0 = 1 (R35). -/
def Obligations.HostAccessesWhileBusy : Prop :=
  ∀ (s : State) (v : Word), s.busy = true →
    hostAccess (regWrite 0x010 v) s = { s with hacc := true, response := .written } ∧
    (∀ k : Reg, hostAccess (regWrite (0x040 + 4 * k.toNat) v) s = { s with hacc := true, response := .written }) ∧
    (∀ a w, a < Config.lmemSize → a % widthBytes w = 0 →
      hostAccess (windowWrite a w v) s = { s with hacc := true, response := .written }) ∧
    (v.getLsbD 0 = true → hostAccess (regWrite 0x004 v) s =
      { s with hacc := true, abortReq := s.abortReq || v.getLsbD 1, response := .written }) ∧
    (∀ acc, (acc = regRead 0x010 ∨ acc = regRead 0x01C ∨ (∃ k : Reg, acc = regRead (0x040 + 4 * k.toNat)) ∨
        ∃ a w, a < Config.lmemSize ∧ a % widthBytes w = 0 ∧ acc = windowRead a w) →
      ∃ x, ReadGives acc s x) ∧
    ReadGives (regRead 0x000) s 0x54535301 ∧ ReadGives (regRead 0x008) s (statusSum s) ∧
    (statusSum s).getLsbD 0 = true ∧ ReadGives (regRead 0x00C) s (irqenSum s) ∧
    ReadGives (regRead 0x014) s s.errPC ∧ ReadGives (regRead 0x018) s s.errInfo ∧
    ReadGives (regRead 0x020) s (BitVec.ofNat 32 Config.lmemSize) ∧
    hostAccess (regWrite 0x008 v) s = { writeStatus v s with response := .written } ∧
    hostAccess (regWrite 0x00C v) s = { writeIrqen v s with response := .written }

/-- R34 and R290: CTRL reads 0; START while idle clears the record and sets BUSY, and changes nothing else, ABORT in the
same write being ignored; while busy, START sets HACC and ABORT sets ABORTREQ. -/
def Obligations.CtrlStartsAndAborts : Prop :=
  ∀ (s : State) (v : Word),
    (hostAccess (regRead 0x004) s).response = .data 0 ∧
    (s.busy = true → hostAccess (regWrite 0x004 v) s =
      { s with hacc := s.hacc || v.getLsbD 0, abortReq := s.abortReq || v.getLsbD 1, response := .written }) ∧
    (s.busy = false → v.getLsbD 0 = true → hostAccess (regWrite 0x004 v) s =
      { s with done := false, err := false, errCode := .none, errPC := 0, errInfo := 0, cmdCnt := 0, abortReq := false,
               busy := true, response := .written }) ∧
    (s.busy = false → v.getLsbD 0 = false → hostAccess (regWrite 0x004 v) s = { s with response := .written })

/-- R36: a STATUS write acts bit by bit. -/
def Obligations.StatusWritesClearBitByBit : Prop :=
  ∀ (s : State) (v : Word),
    hostAccess (regWrite 0x008 v) s =
      { s with
        done := if v.getLsbD 1 then false else s.done
        err := if v.getLsbD 2 then false else s.err
        errCode := if v.getLsbD 2 then .none else s.errCode
        hacc := if v.getLsbD 3 then false else s.hacc
        response := .written }

/-- What the host reads, and that reading changes nothing (R31, R33 to R35, R37 to R43, R71): some registers at any time,
with STATUS and IRQEN as sums of their bits, and the others and the LMEM window while the engine is idle. That the
model's counter of draws moves is log entry 2. -/
def Obligations.HostReadsTheRegisters : Prop :=
  ∀ s : State,
    ReadGives (regRead 0x000) s 0x54535301 ∧ ReadGives (regRead 0x004) s 0 ∧
    ReadGives (regRead 0x008) s (statusSum s) ∧ ReadGives (regRead 0x00C) s (irqenSum s) ∧
    ReadGives (regRead 0x014) s s.errPC ∧ ReadGives (regRead 0x018) s s.errInfo ∧
    ReadGives (regRead 0x020) s 0x00100000 ∧
    (s.busy = false →
      ReadGives (regRead 0x010) s s.pc ∧ ReadGives (regRead 0x01C) s s.cmdCnt ∧
      (∀ k : Reg, ReadGives (regRead (0x040 + 4 * k.toNat)) s (readReg s k)) ∧
      ∀ (a : Nat) (w : Width), a < Config.lmemSize → a % widthBytes w = 0 →
        ∃ x, ReadGives (windowRead a w) s x ∧ ∀ k, k < widthBytes w → x.extractLsb' (8 * k) 8 = byteAt s (a + k))

/-- What a host write changes while the engine is idle: PC takes the word, IRQEN its three bits, read-only registers
nothing, and GPRk takes the word and leaves everything but the general registers as it was (R30, R37, R38, R43). -/
def Obligations.IdleHostWritesTheRegisters : Prop :=
  ∀ (s : State) (v : Word), s.busy = false →
    hostAccess (regWrite 0x010 v) s = { s with pc := v, response := .written } ∧
    hostAccess (regWrite 0x00C v) s =
      { s with doneIE := v.getLsbD 1, errIE := v.getLsbD 2, haccIE := v.getLsbD 3, response := .written } ∧
    irqenWord (hostAccess (regWrite 0x00C v) s) = v &&& 0x0000000E ∧
    (∀ off ∈ [0x000, 0x014, 0x018, 0x01C, 0x020], hostAccess (regWrite off v) s = { s with response := .written }) ∧
    ∀ k : Reg, ∃ t, hostAccess (regWrite (0x040 + 4 * k.toNat) v) s = t ∧
      t = { s with regs := t.regs, response := .written } ∧ ∀ r, readReg t r = if r = k then v else readReg s r

/-- R71: the window. A write of width w stores the low w bytes of the bus word, byte k at a + k, changes no other byte,
and nothing but LMEM; a read returns byte k on bus bits [8k+7:8k]; and a 32-bit write stores the word that a fetch
returns. -/
def Obligations.WindowIsLittleEndian : Prop :=
  ∀ (s : State) (a : Nat) (w : Width) (v : Word), s.busy = false → a < Config.lmemSize → a % widthBytes w = 0 →
    (∀ k, k < widthBytes w → byteAt (hostAccess (windowWrite a w v) s) (a + k) = v.extractLsb' (8 * k) 8) ∧
    (∀ x, x < a ∨ a + widthBytes w ≤ x → byteAt (hostAccess (windowWrite a w v) s) x = byteAt s x) ∧
    (∀ r, readReg (hostAccess (windowWrite a w v) s) r = readReg s r) ∧
    (∃ m, hostAccess (windowWrite a w v) s = { s with lmem := m, response := .written }) ∧
    (w = .word → wordAt (hostAccess (windowWrite a w v) s) a = v) ∧
    ∃ x, (hostAccess (windowRead a w) s).response = .data x ∧
      ∀ k, k < widthBytes w → x.extractLsb' (8 * k) 8 = byteAt s (a + k)

/-- R285: irq is the OR of the STATUS bits that IRQEN enables, masking clears no STATUS bit, and W1C clears a source. -/
def Obligations.IrqFollowsStatusAndEnables : Prop :=
  ∀ (s : State) (v : Word),
    (irq s = true ↔ statusWord s &&& irqenWord s ≠ 0) ∧ statusWord (writeIrqen v s) = statusWord s ∧
    (statusWord (writeStatus v s)) &&& v &&& 0x0000000E = 0 ∧
    (start s).done = false ∧ (start s).err = false

/-- What a reset leaves (R44, R311): every register its value of R44; LMEM as it was if the engine was idle, and free as a
whole after power-on or a reset during a run. That a free byte is `Config.unwrittenByte` of a new draw number is the
model's form (log entry 1), and so is that the coming turns go on (log entry 12). -/
def Obligations.ResetLeavesTheTableValues : Prop :=
  ∀ (s : State) (rest : List Turn),
    let cleared (t : State) : Prop :=
      (∀ r, readReg t r = 0) ∧ t.pc = 0 ∧ t.busy = false ∧ t.abortReq = false ∧ t.done = false ∧ t.err = false ∧
      t.hacc = false ∧ errCodeByte t.errCode = 0x00 ∧ irqenWord t = 0 ∧ t.errPC = 0 ∧ t.errInfo = 0 ∧ t.cmdCnt = 0 ∧
      irq t = false
    cleared State.reset ∧ (∀ a, byteAt State.reset a = Config.unwrittenByte 0 a) ∧
    (s.turns = .reset :: rest → ∃ t, step s = .next t ∧ cleared t ∧ t.turns = rest ∧
      (s.busy = false → ∀ a, byteAt t a = byteAt s a) ∧
      (s.busy = true → ∀ a, byteAt t a = Config.unwrittenByte (s.lmemDraw + 1) a)) ∧
    (s.turns = .powerOn :: rest → ∃ t, step s = .next t ∧ cleared t ∧ t.turns = rest ∧
      ∀ a, byteAt t a = Config.unwrittenByte (s.lmemDraw + 1) a)

/-- R314: the boot sequence, run from any idle state, leaves the engine running at the entry with the command words, the
data bytes, the registers and the enables that were loaded. -/
def Obligations.BootLoadsAndStarts : Prop :=
  ∀ (s : State) (img : BootImage) (rest : List Turn),
    s.busy = false → s.turns = bootTurns img ++ rest →
    img.codeAddr % 4 = 0 → img.codeAddr + 4 * img.code.length ≤ Config.lmemSize →
    img.dataAddr + img.data.length ≤ Config.lmemSize →
    (img.codeAddr + 4 * img.code.length ≤ img.dataAddr ∨ img.dataAddr + img.data.length ≤ img.codeAddr) →
    (img.regs.map Prod.fst).Nodup →
    ∃ t, Sys2Proof.core.run (bootTurns img).length s = .next t ∧ t.turns = rest ∧ t.busy = true ∧ t.done = false ∧
      t.err = false ∧ t.hacc = false ∧ t.abortReq = false ∧ t.cmdCnt = 0 ∧ t.pc = img.entry ∧
      (∀ k, k < img.code.length → wordAt t (img.codeAddr + 4 * k) = img.code.getD k 0) ∧
      readBytes t img.dataAddr img.data.length = img.data ∧
      (∀ rv ∈ img.regs, readReg t rv.1 = rv.2) ∧
      irqenWord t = img.irqen &&& 0x0000000E
end

