-- ==== Sys2Proof/Laws/State.lean ====
section
/-! SUPPORT. One lemma per field of State and per named update, each true by rfl, so that no proof unfolds a record
update. -/

namespace Sys2Proof.Laws

open Sys2Proof.Machine

/-! ## setReg -/

@[simp] theorem setReg_regs (s : State) (r : Reg) (v : Word) : (setReg s r v).regs = s.regs.set r.toNat v r.isLt := rfl
@[simp] theorem setReg_pc (s : State) (r : Reg) (v : Word) : (setReg s r v).pc = s.pc := rfl
@[simp] theorem setReg_busy (s : State) (r : Reg) (v : Word) : (setReg s r v).busy = s.busy := rfl
@[simp] theorem setReg_abortReq (s : State) (r : Reg) (v : Word) : (setReg s r v).abortReq = s.abortReq := rfl
@[simp] theorem setReg_done (s : State) (r : Reg) (v : Word) : (setReg s r v).done = s.done := rfl
@[simp] theorem setReg_err (s : State) (r : Reg) (v : Word) : (setReg s r v).err = s.err := rfl
@[simp] theorem setReg_hacc (s : State) (r : Reg) (v : Word) : (setReg s r v).hacc = s.hacc := rfl
@[simp] theorem setReg_errCode (s : State) (r : Reg) (v : Word) : (setReg s r v).errCode = s.errCode := rfl
@[simp] theorem setReg_doneIE (s : State) (r : Reg) (v : Word) : (setReg s r v).doneIE = s.doneIE := rfl
@[simp] theorem setReg_errIE (s : State) (r : Reg) (v : Word) : (setReg s r v).errIE = s.errIE := rfl
@[simp] theorem setReg_haccIE (s : State) (r : Reg) (v : Word) : (setReg s r v).haccIE = s.haccIE := rfl
@[simp] theorem setReg_errPC (s : State) (r : Reg) (v : Word) : (setReg s r v).errPC = s.errPC := rfl
@[simp] theorem setReg_errInfo (s : State) (r : Reg) (v : Word) : (setReg s r v).errInfo = s.errInfo := rfl
@[simp] theorem setReg_cmdCnt (s : State) (r : Reg) (v : Word) : (setReg s r v).cmdCnt = s.cmdCnt := rfl
@[simp] theorem setReg_lmem (s : State) (r : Reg) (v : Word) : (setReg s r v).lmem = s.lmem := rfl
@[simp] theorem setReg_lmemDraw (s : State) (r : Reg) (v : Word) : (setReg s r v).lmemDraw = s.lmemDraw := rfl
@[simp] theorem setReg_freeDraws (s : State) (r : Reg) (v : Word) : (setReg s r v).freeDraws = s.freeDraws := rfl
@[simp] theorem setReg_turns (s : State) (r : Reg) (v : Word) : (setReg s r v).turns = s.turns := rfl
@[simp] theorem setReg_response (s : State) (r : Reg) (v : Word) : (setReg s r v).response = s.response := rfl

/-! ## writeBytes -/

@[simp] theorem writeBytes_regs (s : State) (a : Nat) (bs : List Byte) : (writeBytes s a bs).regs = s.regs := rfl
@[simp] theorem writeBytes_pc (s : State) (a : Nat) (bs : List Byte) : (writeBytes s a bs).pc = s.pc := rfl
@[simp] theorem writeBytes_busy (s : State) (a : Nat) (bs : List Byte) : (writeBytes s a bs).busy = s.busy := rfl
@[simp] theorem writeBytes_abortReq (s : State) (a : Nat) (bs : List Byte) : (writeBytes s a bs).abortReq = s.abortReq := rfl
@[simp] theorem writeBytes_done (s : State) (a : Nat) (bs : List Byte) : (writeBytes s a bs).done = s.done := rfl
@[simp] theorem writeBytes_err (s : State) (a : Nat) (bs : List Byte) : (writeBytes s a bs).err = s.err := rfl
@[simp] theorem writeBytes_hacc (s : State) (a : Nat) (bs : List Byte) : (writeBytes s a bs).hacc = s.hacc := rfl
@[simp] theorem writeBytes_errCode (s : State) (a : Nat) (bs : List Byte) : (writeBytes s a bs).errCode = s.errCode := rfl
@[simp] theorem writeBytes_doneIE (s : State) (a : Nat) (bs : List Byte) : (writeBytes s a bs).doneIE = s.doneIE := rfl
@[simp] theorem writeBytes_errIE (s : State) (a : Nat) (bs : List Byte) : (writeBytes s a bs).errIE = s.errIE := rfl
@[simp] theorem writeBytes_haccIE (s : State) (a : Nat) (bs : List Byte) : (writeBytes s a bs).haccIE = s.haccIE := rfl
@[simp] theorem writeBytes_errPC (s : State) (a : Nat) (bs : List Byte) : (writeBytes s a bs).errPC = s.errPC := rfl
@[simp] theorem writeBytes_errInfo (s : State) (a : Nat) (bs : List Byte) : (writeBytes s a bs).errInfo = s.errInfo := rfl
@[simp] theorem writeBytes_cmdCnt (s : State) (a : Nat) (bs : List Byte) : (writeBytes s a bs).cmdCnt = s.cmdCnt := rfl
@[simp] theorem writeBytes_lmem (s : State) (a : Nat) (bs : List Byte) : (writeBytes s a bs).lmem = s.lmem.writeBytes a bs := rfl
@[simp] theorem writeBytes_lmemDraw (s : State) (a : Nat) (bs : List Byte) : (writeBytes s a bs).lmemDraw = s.lmemDraw := rfl
@[simp] theorem writeBytes_freeDraws (s : State) (a : Nat) (bs : List Byte) : (writeBytes s a bs).freeDraws = s.freeDraws := rfl
@[simp] theorem writeBytes_turns (s : State) (a : Nat) (bs : List Byte) : (writeBytes s a bs).turns = s.turns := rfl
@[simp] theorem writeBytes_response (s : State) (a : Nat) (bs : List Byte) : (writeBytes s a bs).response = s.response := rfl

/-! ## finish -/

@[simp] theorem finish_regs (s : State) (next : Word) : (finish next s).regs = s.regs := rfl
@[simp] theorem finish_pc (s : State) (next : Word) : (finish next s).pc = next := rfl
@[simp] theorem finish_busy (s : State) (next : Word) : (finish next s).busy = s.busy := rfl
@[simp] theorem finish_abortReq (s : State) (next : Word) : (finish next s).abortReq = s.abortReq := rfl
@[simp] theorem finish_done (s : State) (next : Word) : (finish next s).done = s.done := rfl
@[simp] theorem finish_err (s : State) (next : Word) : (finish next s).err = s.err := rfl
@[simp] theorem finish_hacc (s : State) (next : Word) : (finish next s).hacc = s.hacc := rfl
@[simp] theorem finish_errCode (s : State) (next : Word) : (finish next s).errCode = s.errCode := rfl
@[simp] theorem finish_doneIE (s : State) (next : Word) : (finish next s).doneIE = s.doneIE := rfl
@[simp] theorem finish_errIE (s : State) (next : Word) : (finish next s).errIE = s.errIE := rfl
@[simp] theorem finish_haccIE (s : State) (next : Word) : (finish next s).haccIE = s.haccIE := rfl
@[simp] theorem finish_errPC (s : State) (next : Word) : (finish next s).errPC = s.errPC := rfl
@[simp] theorem finish_errInfo (s : State) (next : Word) : (finish next s).errInfo = s.errInfo := rfl
@[simp] theorem finish_cmdCnt (s : State) (next : Word) : (finish next s).cmdCnt = s.cmdCnt + 1 := rfl
@[simp] theorem finish_lmem (s : State) (next : Word) : (finish next s).lmem = s.lmem := rfl
@[simp] theorem finish_lmemDraw (s : State) (next : Word) : (finish next s).lmemDraw = s.lmemDraw := rfl
@[simp] theorem finish_freeDraws (s : State) (next : Word) : (finish next s).freeDraws = s.freeDraws := rfl
@[simp] theorem finish_turns (s : State) (next : Word) : (finish next s).turns = s.turns := rfl
@[simp] theorem finish_response (s : State) (next : Word) : (finish next s).response = s.response := rfl

/-! ## stop -/

@[simp] theorem stop_regs (s : State) : (stop s).regs = s.regs := rfl
@[simp] theorem stop_pc (s : State) : (stop s).pc = s.pc := rfl
@[simp] theorem stop_busy (s : State) : (stop s).busy = false := rfl
@[simp] theorem stop_abortReq (s : State) : (stop s).abortReq = false := rfl
@[simp] theorem stop_done (s : State) : (stop s).done = true := rfl
@[simp] theorem stop_err (s : State) : (stop s).err = s.err := rfl
@[simp] theorem stop_hacc (s : State) : (stop s).hacc = s.hacc := rfl
@[simp] theorem stop_errCode (s : State) : (stop s).errCode = s.errCode := rfl
@[simp] theorem stop_doneIE (s : State) : (stop s).doneIE = s.doneIE := rfl
@[simp] theorem stop_errIE (s : State) : (stop s).errIE = s.errIE := rfl
@[simp] theorem stop_haccIE (s : State) : (stop s).haccIE = s.haccIE := rfl
@[simp] theorem stop_errPC (s : State) : (stop s).errPC = s.errPC := rfl
@[simp] theorem stop_errInfo (s : State) : (stop s).errInfo = s.errInfo := rfl
@[simp] theorem stop_cmdCnt (s : State) : (stop s).cmdCnt = s.cmdCnt := rfl
@[simp] theorem stop_lmem (s : State) : (stop s).lmem = s.lmem := rfl
@[simp] theorem stop_lmemDraw (s : State) : (stop s).lmemDraw = s.lmemDraw := rfl
@[simp] theorem stop_freeDraws (s : State) : (stop s).freeDraws = s.freeDraws := rfl
@[simp] theorem stop_turns (s : State) : (stop s).turns = s.turns := rfl
@[simp] theorem stop_response (s : State) : (stop s).response = s.response := rfl

/-! ## takeError -/

@[simp] theorem takeError_regs (s : State) (e : ErrCode) (info : Word) : (takeError e info s).regs = s.regs := rfl
@[simp] theorem takeError_pc (s : State) (e : ErrCode) (info : Word) : (takeError e info s).pc = s.pc := rfl
@[simp] theorem takeError_busy (s : State) (e : ErrCode) (info : Word) : (takeError e info s).busy = false := rfl
@[simp] theorem takeError_abortReq (s : State) (e : ErrCode) (info : Word) : (takeError e info s).abortReq = false := rfl
@[simp] theorem takeError_done (s : State) (e : ErrCode) (info : Word) : (takeError e info s).done = s.done := rfl
@[simp] theorem takeError_err (s : State) (e : ErrCode) (info : Word) : (takeError e info s).err = true := rfl
@[simp] theorem takeError_hacc (s : State) (e : ErrCode) (info : Word) : (takeError e info s).hacc = s.hacc := rfl
@[simp] theorem takeError_errCode (s : State) (e : ErrCode) (info : Word) : (takeError e info s).errCode = e := rfl
@[simp] theorem takeError_doneIE (s : State) (e : ErrCode) (info : Word) : (takeError e info s).doneIE = s.doneIE := rfl
@[simp] theorem takeError_errIE (s : State) (e : ErrCode) (info : Word) : (takeError e info s).errIE = s.errIE := rfl
@[simp] theorem takeError_haccIE (s : State) (e : ErrCode) (info : Word) : (takeError e info s).haccIE = s.haccIE := rfl
@[simp] theorem takeError_errPC (s : State) (e : ErrCode) (info : Word) : (takeError e info s).errPC = s.pc := rfl
@[simp] theorem takeError_errInfo (s : State) (e : ErrCode) (info : Word) : (takeError e info s).errInfo = info := rfl
@[simp] theorem takeError_cmdCnt (s : State) (e : ErrCode) (info : Word) : (takeError e info s).cmdCnt = s.cmdCnt := rfl
@[simp] theorem takeError_lmem (s : State) (e : ErrCode) (info : Word) : (takeError e info s).lmem = s.lmem := rfl
@[simp] theorem takeError_lmemDraw (s : State) (e : ErrCode) (info : Word) : (takeError e info s).lmemDraw = s.lmemDraw := rfl
@[simp] theorem takeError_freeDraws (s : State) (e : ErrCode) (info : Word) : (takeError e info s).freeDraws = s.freeDraws := rfl
@[simp] theorem takeError_turns (s : State) (e : ErrCode) (info : Word) : (takeError e info s).turns = s.turns := rfl
@[simp] theorem takeError_response (s : State) (e : ErrCode) (info : Word) : (takeError e info s).response = s.response := rfl

/-! ## start -/

@[simp] theorem start_regs (s : State) : (start s).regs = s.regs := rfl
@[simp] theorem start_pc (s : State) : (start s).pc = s.pc := rfl
@[simp] theorem start_busy (s : State) : (start s).busy = true := rfl
@[simp] theorem start_abortReq (s : State) : (start s).abortReq = false := rfl
@[simp] theorem start_done (s : State) : (start s).done = false := rfl
@[simp] theorem start_err (s : State) : (start s).err = false := rfl
@[simp] theorem start_hacc (s : State) : (start s).hacc = s.hacc := rfl
@[simp] theorem start_errCode (s : State) : (start s).errCode = .none := rfl
@[simp] theorem start_doneIE (s : State) : (start s).doneIE = s.doneIE := rfl
@[simp] theorem start_errIE (s : State) : (start s).errIE = s.errIE := rfl
@[simp] theorem start_haccIE (s : State) : (start s).haccIE = s.haccIE := rfl
@[simp] theorem start_errPC (s : State) : (start s).errPC = 0 := rfl
@[simp] theorem start_errInfo (s : State) : (start s).errInfo = 0 := rfl
@[simp] theorem start_cmdCnt (s : State) : (start s).cmdCnt = 0 := rfl
@[simp] theorem start_lmem (s : State) : (start s).lmem = s.lmem := rfl
@[simp] theorem start_lmemDraw (s : State) : (start s).lmemDraw = s.lmemDraw := rfl
@[simp] theorem start_freeDraws (s : State) : (start s).freeDraws = s.freeDraws := rfl
@[simp] theorem start_turns (s : State) : (start s).turns = s.turns := rfl
@[simp] theorem start_response (s : State) : (start s).response = s.response := rfl

/-! ## writeStatus -/

@[simp] theorem writeStatus_regs (s : State) (v : Word) : (writeStatus v s).regs = s.regs := rfl
@[simp] theorem writeStatus_pc (s : State) (v : Word) : (writeStatus v s).pc = s.pc := rfl
@[simp] theorem writeStatus_busy (s : State) (v : Word) : (writeStatus v s).busy = s.busy := rfl
@[simp] theorem writeStatus_abortReq (s : State) (v : Word) : (writeStatus v s).abortReq = s.abortReq := rfl
@[simp] theorem writeStatus_done (s : State) (v : Word) : (writeStatus v s).done = (s.done && !v.getLsbD 1) := rfl
@[simp] theorem writeStatus_err (s : State) (v : Word) : (writeStatus v s).err = (s.err && !v.getLsbD 2) := rfl
@[simp] theorem writeStatus_hacc (s : State) (v : Word) : (writeStatus v s).hacc = (s.hacc && !v.getLsbD 3) := rfl
@[simp] theorem writeStatus_errCode (s : State) (v : Word) : (writeStatus v s).errCode = if v.getLsbD 2 then .none else s.errCode := rfl
@[simp] theorem writeStatus_doneIE (s : State) (v : Word) : (writeStatus v s).doneIE = s.doneIE := rfl
@[simp] theorem writeStatus_errIE (s : State) (v : Word) : (writeStatus v s).errIE = s.errIE := rfl
@[simp] theorem writeStatus_haccIE (s : State) (v : Word) : (writeStatus v s).haccIE = s.haccIE := rfl
@[simp] theorem writeStatus_errPC (s : State) (v : Word) : (writeStatus v s).errPC = s.errPC := rfl
@[simp] theorem writeStatus_errInfo (s : State) (v : Word) : (writeStatus v s).errInfo = s.errInfo := rfl
@[simp] theorem writeStatus_cmdCnt (s : State) (v : Word) : (writeStatus v s).cmdCnt = s.cmdCnt := rfl
@[simp] theorem writeStatus_lmem (s : State) (v : Word) : (writeStatus v s).lmem = s.lmem := rfl
@[simp] theorem writeStatus_lmemDraw (s : State) (v : Word) : (writeStatus v s).lmemDraw = s.lmemDraw := rfl
@[simp] theorem writeStatus_freeDraws (s : State) (v : Word) : (writeStatus v s).freeDraws = s.freeDraws := rfl
@[simp] theorem writeStatus_turns (s : State) (v : Word) : (writeStatus v s).turns = s.turns := rfl
@[simp] theorem writeStatus_response (s : State) (v : Word) : (writeStatus v s).response = s.response := rfl

/-! ## writeIrqen -/

@[simp] theorem writeIrqen_regs (s : State) (v : Word) : (writeIrqen v s).regs = s.regs := rfl
@[simp] theorem writeIrqen_pc (s : State) (v : Word) : (writeIrqen v s).pc = s.pc := rfl
@[simp] theorem writeIrqen_busy (s : State) (v : Word) : (writeIrqen v s).busy = s.busy := rfl
@[simp] theorem writeIrqen_abortReq (s : State) (v : Word) : (writeIrqen v s).abortReq = s.abortReq := rfl
@[simp] theorem writeIrqen_done (s : State) (v : Word) : (writeIrqen v s).done = s.done := rfl
@[simp] theorem writeIrqen_err (s : State) (v : Word) : (writeIrqen v s).err = s.err := rfl
@[simp] theorem writeIrqen_hacc (s : State) (v : Word) : (writeIrqen v s).hacc = s.hacc := rfl
@[simp] theorem writeIrqen_errCode (s : State) (v : Word) : (writeIrqen v s).errCode = s.errCode := rfl
@[simp] theorem writeIrqen_doneIE (s : State) (v : Word) : (writeIrqen v s).doneIE = v.getLsbD 1 := rfl
@[simp] theorem writeIrqen_errIE (s : State) (v : Word) : (writeIrqen v s).errIE = v.getLsbD 2 := rfl
@[simp] theorem writeIrqen_haccIE (s : State) (v : Word) : (writeIrqen v s).haccIE = v.getLsbD 3 := rfl
@[simp] theorem writeIrqen_errPC (s : State) (v : Word) : (writeIrqen v s).errPC = s.errPC := rfl
@[simp] theorem writeIrqen_errInfo (s : State) (v : Word) : (writeIrqen v s).errInfo = s.errInfo := rfl
@[simp] theorem writeIrqen_cmdCnt (s : State) (v : Word) : (writeIrqen v s).cmdCnt = s.cmdCnt := rfl
@[simp] theorem writeIrqen_lmem (s : State) (v : Word) : (writeIrqen v s).lmem = s.lmem := rfl
@[simp] theorem writeIrqen_lmemDraw (s : State) (v : Word) : (writeIrqen v s).lmemDraw = s.lmemDraw := rfl
@[simp] theorem writeIrqen_freeDraws (s : State) (v : Word) : (writeIrqen v s).freeDraws = s.freeDraws := rfl
@[simp] theorem writeIrqen_turns (s : State) (v : Word) : (writeIrqen v s).turns = s.turns := rfl
@[simp] theorem writeIrqen_response (s : State) (v : Word) : (writeIrqen v s).response = s.response := rfl

/-! ## respond -/

@[simp] theorem respond_regs (s : State) (r : Response) : (respond r s).regs = s.regs := rfl
@[simp] theorem respond_pc (s : State) (r : Response) : (respond r s).pc = s.pc := rfl
@[simp] theorem respond_busy (s : State) (r : Response) : (respond r s).busy = s.busy := rfl
@[simp] theorem respond_abortReq (s : State) (r : Response) : (respond r s).abortReq = s.abortReq := rfl
@[simp] theorem respond_done (s : State) (r : Response) : (respond r s).done = s.done := rfl
@[simp] theorem respond_err (s : State) (r : Response) : (respond r s).err = s.err := rfl
@[simp] theorem respond_hacc (s : State) (r : Response) : (respond r s).hacc = s.hacc := rfl
@[simp] theorem respond_errCode (s : State) (r : Response) : (respond r s).errCode = s.errCode := rfl
@[simp] theorem respond_doneIE (s : State) (r : Response) : (respond r s).doneIE = s.doneIE := rfl
@[simp] theorem respond_errIE (s : State) (r : Response) : (respond r s).errIE = s.errIE := rfl
@[simp] theorem respond_haccIE (s : State) (r : Response) : (respond r s).haccIE = s.haccIE := rfl
@[simp] theorem respond_errPC (s : State) (r : Response) : (respond r s).errPC = s.errPC := rfl
@[simp] theorem respond_errInfo (s : State) (r : Response) : (respond r s).errInfo = s.errInfo := rfl
@[simp] theorem respond_cmdCnt (s : State) (r : Response) : (respond r s).cmdCnt = s.cmdCnt := rfl
@[simp] theorem respond_lmem (s : State) (r : Response) : (respond r s).lmem = s.lmem := rfl
@[simp] theorem respond_lmemDraw (s : State) (r : Response) : (respond r s).lmemDraw = s.lmemDraw := rfl
@[simp] theorem respond_freeDraws (s : State) (r : Response) : (respond r s).freeDraws = s.freeDraws := rfl
@[simp] theorem respond_turns (s : State) (r : Response) : (respond r s).turns = s.turns := rfl
@[simp] theorem respond_response (s : State) (r : Response) : (respond r s).response = r := rfl

/-! ## dropAccess -/

@[simp] theorem dropAccess_regs (s : State) : (dropAccess s).regs = s.regs := rfl
@[simp] theorem dropAccess_pc (s : State) : (dropAccess s).pc = s.pc := rfl
@[simp] theorem dropAccess_busy (s : State) : (dropAccess s).busy = s.busy := rfl
@[simp] theorem dropAccess_abortReq (s : State) : (dropAccess s).abortReq = s.abortReq := rfl
@[simp] theorem dropAccess_done (s : State) : (dropAccess s).done = s.done := rfl
@[simp] theorem dropAccess_err (s : State) : (dropAccess s).err = s.err := rfl
@[simp] theorem dropAccess_hacc (s : State) : (dropAccess s).hacc = true := rfl
@[simp] theorem dropAccess_errCode (s : State) : (dropAccess s).errCode = s.errCode := rfl
@[simp] theorem dropAccess_doneIE (s : State) : (dropAccess s).doneIE = s.doneIE := rfl
@[simp] theorem dropAccess_errIE (s : State) : (dropAccess s).errIE = s.errIE := rfl
@[simp] theorem dropAccess_haccIE (s : State) : (dropAccess s).haccIE = s.haccIE := rfl
@[simp] theorem dropAccess_errPC (s : State) : (dropAccess s).errPC = s.errPC := rfl
@[simp] theorem dropAccess_errInfo (s : State) : (dropAccess s).errInfo = s.errInfo := rfl
@[simp] theorem dropAccess_cmdCnt (s : State) : (dropAccess s).cmdCnt = s.cmdCnt := rfl
@[simp] theorem dropAccess_lmem (s : State) : (dropAccess s).lmem = s.lmem := rfl
@[simp] theorem dropAccess_lmemDraw (s : State) : (dropAccess s).lmemDraw = s.lmemDraw := rfl
@[simp] theorem dropAccess_freeDraws (s : State) : (dropAccess s).freeDraws = s.freeDraws := rfl
@[simp] theorem dropAccess_turns (s : State) : (dropAccess s).turns = s.turns := rfl
@[simp] theorem dropAccess_response (s : State) : (dropAccess s).response = s.response := rfl

end Sys2Proof.Laws
end

