-- ==== Sys2Proof/Laws/Memory.lean ====
section
/-! SUPPORT. The laws of LMEM: what a read gives after a write, that writes keep the canonical form and stay inside LMEM,
and that memories in canonical form with equal contents are equal lists. -/

namespace Sys2Proof.Laws

open Sys2Proof.Machine

/-! ## Read after write -/

theorem lookup_write (m : Memory) (a x : Nat) (b : Byte) :
    (m.write a b).lookup x = if x = a then some b else m.lookup x := by
  induction m with
  | nil => simp only [Memory.write, Memory.lookup]
  | cons c m ih =>
    obtain ⟨y, v⟩ := c
    simp only [Memory.write]
    split_ifs <;> simp_all only [Memory.lookup] <;> grind

theorem lookup_writeBytes (m : Memory) (a x : Nat) (bs : List Byte) :
    (m.writeBytes a bs).lookup x = if a ≤ x ∧ x < a + bs.length then bs[x - a]? else m.lookup x := by
  induction bs generalizing m a with
  | nil => rw [if_neg (by simp)]; rfl
  | cons b bs ih =>
    rw [Memory.writeBytes, ih, lookup_write]
    rcases Nat.lt_trichotomy x a with h | h | h
    · rw [if_neg (by omega), if_neg (by omega), if_neg (by omega)]
    · subst h; simp
    · have hx : x - a = (x - (a + 1)) + 1 := by omega
      simp only [List.length_cons, hx, List.getElem?_cons_succ]
      by_cases hlt : x < a + 1 + bs.length
      · rw [if_pos (by omega), if_pos (by omega)]
      · rw [if_neg (by omega), if_neg (by omega), if_neg (by omega)]

/-- A byte outside the stored range reads as before. -/
theorem byteAt_writeBytes_outside {s : State} {a x : Nat} {bs : List Byte} (h : x < a ∨ a + bs.length ≤ x) :
    byteAt (writeBytes s a bs) x = byteAt s x := by
  simp only [byteAt, writeBytes_lmem, writeBytes_lmemDraw, lookup_writeBytes]
  rw [if_neg (by omega)]

/-- Byte k of the stored range is byte k of the sequence. -/
theorem byteAt_writeBytes_inside {s : State} {a k : Nat} {bs : List Byte} (h : k < bs.length) :
    byteAt (writeBytes s a bs) (a + k) = bs[k] := by
  simp only [byteAt, writeBytes_lmem, lookup_writeBytes]
  rw [if_pos (by omega)]
  simp [h]

/-! ## Reading a range -/

@[simp] theorem length_readBytes (s : State) (a n : Nat) : (readBytes s a n).length = n := by simp [readBytes]

theorem getElem_readBytes {s : State} {a n k : Nat} (h : k < (readBytes s a n).length) :
    (readBytes s a n)[k] = byteAt s (a + k) := by simp [readBytes]

theorem getD_readBytes {s : State} {a n k : Nat} (d : Byte) (h : k < n) : (readBytes s a n).getD k d = byteAt s (a + k) := by
  simp [readBytes, h]

/-- MemRead depends on the bytes of its range only. -/
theorem readBytes_congr {s t : State} {a n : Nat} (h : ∀ k, k < n → byteAt t (a + k) = byteAt s (a + k)) :
    readBytes t a n = readBytes s a n := by
  apply List.ext_getElem (by simp)
  intro k h₁ _
  rw [getElem_readBytes, getElem_readBytes]
  exact h k (by simpa using h₁)

/-- MemRead of a range just written gives the written sequence. -/
theorem readBytes_of_bytes {s : State} {a : Nat} {bs : List Byte}
    (h : ∀ k, (hk : k < bs.length) → byteAt s (a + k) = bs[k]) : readBytes s a bs.length = bs := by
  apply List.ext_getElem (by simp)
  intro k h₁ h₂
  rw [getElem_readBytes]
  exact h k h₂

/-! ## The canonical form -/

theorem mem_write {m : Memory} {a : Nat} {b : Byte} {c : Host.Cell} (h : c ∈ m.write a b) : c = (a, b) ∨ c ∈ m := by
  induction m with
  | nil => simpa [Memory.write] using h
  | cons e m ih =>
    obtain ⟨y, v⟩ := e
    simp only [Memory.write] at h
    split_ifs at h <;> grind

theorem wf_write {m : Memory} (a : Nat) (b : Byte) (h : m.wf) : (m.write a b).wf := by
  induction m with
  | nil => simp [Memory.write, Memory.wf]
  | cons e m ih =>
    obtain ⟨y, v⟩ := e
    simp only [Memory.wf, List.pairwise_cons] at h
    have ih' := ih h.2
    simp only [Memory.write]
    split_ifs with h1 h2
    · simp only [Memory.wf, List.pairwise_cons, List.mem_cons, forall_eq_or_imp]
      exact ⟨⟨h1, fun c hc => Nat.lt_trans h1 (h.1 c hc)⟩, h.1, h.2⟩
    · subst h2
      simp only [Memory.wf, List.pairwise_cons]
      exact h
    · simp only [Memory.wf, List.pairwise_cons]
      refine ⟨fun c hc => ?_, ih'⟩
      rcases mem_write hc with rfl | hc
      · simp only; omega
      · exact h.1 c hc

theorem wf_writeBytes {m : Memory} (a : Nat) (bs : List Byte) (h : m.wf) : (m.writeBytes a bs).wf := by
  induction bs generalizing m a with
  | nil => exact h
  | cons b bs ih => exact ih (a + 1) (wf_write a b h)

theorem inside_write {m : Memory} {a : Nat} {b : Byte} (h : m.inside) (ha : a < Config.lmemSize) :
    (m.write a b).inside := by
  intro c hc
  rcases mem_write hc with rfl | hc
  · exact ha
  · exact h c hc

theorem inside_writeBytes {m : Memory} {a : Nat} {bs : List Byte} (h : m.inside)
    (ha : bs = [] ∨ a + bs.length ≤ Config.lmemSize) : (m.writeBytes a bs).inside := by
  induction bs generalizing m a with
  | nil => exact h
  | cons b bs ih =>
    simp only [List.length_cons, reduceCtorEq, false_or] at ha
    exact ih (inside_write h (by omega)) (Or.inr (by omega))

/-- What RangeOK says of a stored sequence. -/
theorem rangeOK_stored {addr : Word} {bs : List Byte} (h : rangeOK addr bs.length = true) :
    bs = [] ∨ addr.toNat + bs.length ≤ Config.lmemSize := by
  simp only [rangeOK, Bool.or_eq_true, beq_iff_eq, List.length_eq_zero_iff, Bool.and_eq_true, decide_eq_true_eq] at h
  rcases h with h | h
  · exact Or.inl h
  · exact Or.inr (by omega)

theorem lookup_isSome_iff (m : Memory) (x : Nat) : (m.lookup x).isSome ↔ ∃ v, (x, v) ∈ m := by
  induction m with
  | nil => simp [Memory.lookup]
  | cons e m ih =>
    obtain ⟨y, v⟩ := e
    simp only [Memory.lookup]
    split_ifs with h
    · subst h; simp
    · simp only [ih, List.mem_cons, Prod.mk.injEq]
      constructor
      · rintro ⟨w, hw⟩; exact ⟨w, Or.inr hw⟩
      · rintro ⟨w, hw | hw⟩
        · exact absurd hw.1 h
        · exact ⟨w, hw⟩

/-- Two memories in canonical form that hold the same bytes are the same list. -/
theorem Memory_ext {m m' : Memory} (h : m.wf) (h' : m'.wf) (he : ∀ x, m.lookup x = m'.lookup x) : m = m' := by
  induction m generalizing m' with
  | nil =>
    cases m' with
    | nil => rfl
    | cons e m' =>
      have := he e.1
      simp [Memory.lookup] at this
  | cons e m ih =>
    cases m' with
    | nil =>
      have := he e.1
      simp [Memory.lookup] at this
    | cons e' m' =>
      obtain ⟨y, v⟩ := e
      obtain ⟨y', v'⟩ := e'
      simp only [Memory.wf, List.pairwise_cons] at h h'
      have hy : y = y' := by
        rcases Nat.lt_trichotomy y y' with hlt | heq | hgt
        · have hs : (Memory.lookup ((y', v') :: m') y).isSome := by rw [← he y]; simp [Memory.lookup]
          obtain ⟨w, hw⟩ := (lookup_isSome_iff _ _).1 hs
          rcases List.mem_cons.1 hw with hw | hw
          · exact (Prod.mk.injEq _ _ _ _ ▸ hw).1
          · have := h'.1 _ hw; simp only at this; omega
        · exact heq
        · have hs : (Memory.lookup ((y, v) :: m) y').isSome := by rw [he y']; simp [Memory.lookup]
          obtain ⟨w, hw⟩ := (lookup_isSome_iff _ _).1 hs
          rcases List.mem_cons.1 hw with hw | hw
          · exact (Prod.mk.injEq _ _ _ _ ▸ hw).1.symm
          · have := h.1 _ hw; simp only at this; omega
      subst hy
      have hv : v = v' := by have := he y; simpa [Memory.lookup] using this
      subst hv
      rw [ih h.2 h'.2]
      intro x
      by_cases hx : x = y
      · subst hx
        have none_of {l : Memory} (hl : ∀ c ∈ l, x < c.1) : l.lookup x = none := by
          rw [← Option.not_isSome_iff_eq_none, lookup_isSome_iff]
          rintro ⟨w, hw⟩
          have := hl _ hw
          simp only at this
          omega
        rw [none_of h.1, none_of h'.1]
      · have := he x
        simpa [Memory.lookup, hx] using this

end Sys2Proof.Laws
end

