-- ==== Sys2Proof/Laws/Registers.lean ====
section
/-! SUPPORT. The laws of the general registers: what a register reads after each named update. -/

namespace Sys2Proof.Laws

open Sys2Proof.Machine

theorem readReg_setReg (s : State) (d r : Reg) (v : Word) :
    readReg (setReg s d v) r = if r = d then v else readReg s r := by
  simp only [readReg, setReg, Vector.getElem_set]
  split <;> split <;> simp_all [← BitVec.toNat_inj]

@[simp] theorem readReg_setReg_same (s : State) (d : Reg) (v : Word) : readReg (setReg s d v) d = v := by
  simp [readReg_setReg]

theorem readReg_setReg_other {s : State} {d r : Reg} {v : Word} (h : r ≠ d) :
    readReg (setReg s d v) r = readReg s r := by simp [readReg_setReg, h]

@[simp] theorem readReg_writeBytes (s : State) (a : Nat) (bs : List Byte) (r : Reg) :
    readReg (writeBytes s a bs) r = readReg s r := rfl

@[simp] theorem readReg_finish (s : State) (next : Word) (r : Reg) : readReg (finish next s) r = readReg s r := rfl

@[simp] theorem readReg_stop (s : State) (r : Reg) : readReg (stop s) r = readReg s r := rfl

@[simp] theorem readReg_takeError (s : State) (e : ErrCode) (info : Word) (r : Reg) :
    readReg (takeError e info s) r = readReg s r := rfl

@[simp] theorem readReg_start (s : State) (r : Reg) : readReg (start s) r = readReg s r := rfl

@[simp] theorem readReg_respond (s : State) (q : Response) (r : Reg) : readReg (respond q s) r = readReg s r := rfl

@[simp] theorem byteAt_setReg (s : State) (r : Reg) (v : Word) (a : Nat) : byteAt (setReg s r v) a = byteAt s a := rfl

@[simp] theorem byteAt_finish (s : State) (next : Word) (a : Nat) : byteAt (finish next s) a = byteAt s a := rfl

@[simp] theorem byteAt_stop (s : State) (a : Nat) : byteAt (stop s) a = byteAt s a := rfl

@[simp] theorem byteAt_takeError (s : State) (e : ErrCode) (info : Word) (a : Nat) :
    byteAt (takeError e info s) a = byteAt s a := rfl

@[simp] theorem byteAt_start (s : State) (a : Nat) : byteAt (start s) a = byteAt s a := rfl

@[simp] theorem byteAt_respond (s : State) (q : Response) (a : Nat) : byteAt (respond q s) a = byteAt s a := rfl

end Sys2Proof.Laws
end

