-- ==== Sys2Proof/Laws/Exec.lean ====
section
/-! SUPPORT. Everything a command can do, said once: it raises an error of R276, or it commits register and LMEM writes
and goes on, or it is HALT. The whole-machine claims follow from `exec_cases` without unfolding a meaning. -/

namespace Sys2Proof.Laws

open Sys2Proof.Machine

/-- u is s with general registers and LMEM changed, LMEM kept in its canonical form and inside its addresses. -/
structure Commits (s u : State) : Prop where
  rest : u = { s with regs := u.regs, lmem := u.lmem }
  wf : s.lmem.wf → u.lmem.wf
  inside : s.lmem.inside → u.lmem.inside

theorem Commits.refl (s : State) : Commits s s := ⟨rfl, id, id⟩

theorem Commits.setReg {s u : State} (h : Commits s u) (r : Reg) (v : Word) :
    Commits s (Sys2Proof.Machine.setReg u r v) := by
  refine ⟨?_, h.wf, h.inside⟩
  rw [h.rest]; rfl

theorem Commits.setFieldReg {s u : State} (h : Commits s u) (r : Reg) (b : Byte) :
    Commits s (Sys2Proof.Machine.setFieldReg u r b) := h.setReg r _

theorem Commits.writeBytes {s u : State} (h : Commits s u) {a : Nat} {bs : List Byte}
    (hr : bs = [] ∨ a + bs.length ≤ Config.lmemSize) : Commits s (Sys2Proof.Machine.writeBytes u a bs) := by
  refine ⟨?_, fun hw => wf_writeBytes a bs (h.wf hw), fun hi => inside_writeBytes (h.inside hi) hr⟩
  rw [h.rest]; rfl

/-- How a command that is not HALT ends. -/
inductive Ends (s : State) : Result → Prop where
  | raised (e : ErrCode) (info : Word) (h : e ≠ .none ∧ e ≠ .aborted) : Ends s (raise e info s)
  | completed (u : State) (h : Commits s u) : Ends s (.next (finish (s.pc + 4) u))
  | branched (imm : Imm16) : Ends s (.next (finish (branchTarget s.pc imm) s))

theorem Ends.complete {s u : State} (h : Commits s u) : Ends s (Sys2Proof.Machine.complete u) := by
  have hp : u.pc = s.pc := by rw [h.rest]
  rw [Sys2Proof.Machine.complete, hp]
  exact .completed u h

theorem Ends.error {s : State} {e : ErrCode} {info : Word} (h : e ≠ .none ∧ e ≠ .aborted) :
    Ends s (raise e info s) := .raised e info h

theorem Ends.branchIf (s : State) (taken : Bool) (imm : Imm16) : Ends s (Sys2Proof.Machine.branchIf taken imm s) := by
  cases taken
  · exact .completed s (.refl s)
  · exact .branched imm

theorem Ends.storeResult (s : State) (dst : Word) (c : Reg) (out : List Byte) :
    Ends s (Sys2Proof.Machine.storeResult dst c out s) := by
  unfold Sys2Proof.Machine.storeResult
  split
  · exact .error (by decide)
  · rename_i h
    exact .complete (((Commits.refl s).writeBytes (rangeOK_stored (by simpa using h))).setReg _ _)

theorem byteOK_stored {ea : Word} {b : Byte} (h : byteOK ea = true) :
    ([b] : List Byte) = [] ∨ ea.toNat + [b].length ≤ Config.lmemSize := by
  simp only [byteOK, decide_eq_true_eq] at h
  exact Or.inr (by simp only [List.length_singleton]; omega)

@[simp] theorem length_basis (U : List Byte) : (basis U).length = U.length := by simp [basis]

/-- The header is 20 bytes for an identifier of at most 16 (R150). -/
theorem length_packHeader {id : List Byte} (h : id.length ≤ 16) (p q r t : Byte) :
    (packHeader id p q r t).length = 20 := by
  simp [packHeader]; omega

theorem length_b64Quad (v : BitVec 24) : (b64Quad v).length = 4 := rfl

/-- The encoder's length is the length B64E checks (R162). -/
theorem length_b64enc (pad : Bool) (s : List Byte) : (b64enc pad s).length = b64len s.length pad := by
  induction s using b64enc.induct with
  | case1 => rfl
  | case2 x => cases pad <;> simp [b64enc, b64len, b64Quad, padChar]
  | case3 x y => cases pad <;> simp [b64enc, b64len, b64Quad, padChar]
  | case4 x y z rest ih =>
    simp only [b64enc, List.length_append, length_b64Quad, ih, b64len, List.length_cons]
    have h1 : (rest.length + 1 + 1 + 1) / 3 = rest.length / 3 + 1 := by omega
    have h2 : (rest.length + 1 + 1 + 1) % 3 = rest.length % 3 := by omega
    rw [h1, h2]; omega

/-- Everything a command other than HALT can do. -/
theorem exec_ends (i : Instr) (s : State) (hi : i ≠ .halt) : Ends s (exec i s) := by
  have r := Commits.refl s
  cases i with
  | nop => exact .complete r
  | halt => exact absurd rfl hi
  | j imm => exact .branchIf s true imm
  | bz a imm => exact .branchIf s _ imm
  | bnz a imm => exact .branchIf s _ imm
  | li d imm => exact .complete (r.setReg _ _)
  | lui d imm => exact .complete (r.setReg _ _)
  | addi d a imm => exact .complete (r.setReg _ _)
  | add d a b => exact .complete (r.setReg _ _)
  | sub d a b => exact .complete (r.setReg _ _)
  | ldb d a imm =>
    simp only [exec, execLdb]
    split
    · exact .error (by decide)
    · exact .complete (r.setReg _ _)
  | stb d a imm =>
    simp only [exec, execStb]
    split
    · exact .error (by decide)
    · rename_i h
      exact .complete (r.writeBytes (byteOK_stored (by simpa using h)))
  | gadd d a b => exact .complete (r.setFieldReg _ _)
  | gmul d a b => exact .complete (r.setFieldReg _ _)
  | gdiv d a b =>
    simp only [exec, execGdiv]
    split
    · exact .error (by decide)
    · exact .complete (r.setFieldReg _ _)
  | gexp d a => exact .complete (r.setFieldReg _ _)
  | glog d a =>
    simp only [exec, execGlog]
    split
    · exact .error (by decide)
    · exact .complete (r.setFieldReg _ _)
  | peval d a b c =>
    simp only [exec, execPeval]
    split_ifs
    · exact .error (by decide)
    · exact .error (by decide)
    · exact .complete (r.setFieldReg _ _)
  | lagr d a b c e =>
    simp only [exec, execLagr]
    split_ifs
    · exact .error (by decide)
    · exact .error (by decide)
    · split
      · exact .error (by decide)
      · split
        · exact .error (by decide)
        · exact .complete (r.setFieldReg _ _)
  | lbasis d a c =>
    simp only [exec, execLbasis]
    split_ifs with h1 h2 h3
    · exact .error (by decide)
    · exact .error (by decide)
    · exact .error (by decide)
    · split
      · exact .error (by decide)
      · exact .complete (r.writeBytes (rangeOK_stored (by simpa using h3)))
  | gdot d a b c e =>
    simp only [exec, execGdot]
    split_ifs
    · exact .error (by decide)
    · exact .error (by decide)
    · split
      · exact .error (by decide)
      · exact .complete (r.setFieldReg _ _)
  | hpack d a b c =>
    simp only [exec, execHpack]
    split_ifs with h1 h2 h3 h4
    · exact .error (by decide)
    · exact .error (by decide)
    · exact .error (by decide)
    · exact .error (by decide)
    · split
      · exact .error (by decide)
      · refine .complete (r.writeBytes (rangeOK_stored ?_))
        rw [length_packHeader (by simp; omega)]
        simpa using h4
  | hunpack d a b =>
    simp only [exec, execHunpack]
    split_ifs
    · exact .error (by decide)
    · exact .error (by decide)
    · exact .error (by decide)
    · exact .complete ((r.setReg _ _).setReg _ _)
  | b64e d a b c nopad =>
    simp only [exec, execB64e]
    split_ifs with h1 h2
    · exact .error (by decide)
    · exact .error (by decide)
    · refine .complete ((r.writeBytes (rangeOK_stored ?_)).setReg _ _)
      rw [length_b64enc, length_readBytes]
      simpa using h2
  | b64d d a b c =>
    simp only [exec, execB64d]
    split_ifs
    · exact .error (by decide)
    · split
      · exact .error (by decide)
      · exact .storeResult s _ _ _
  | henc d a b c nopad =>
    simp only [exec, execHenc]
    split_ifs
    · exact .error (by decide)
    · exact .error (by decide)
    · split
      · exact .error (by decide)
      · exact .storeResult s _ _ _
  | hdec d a b c =>
    simp only [exec, execHdec]
    split_ifs
    · exact .error (by decide)
    · split
      · exact .error (by decide)
      · split
        · exact .error (by decide)
        · exact .storeResult s _ _ _

/-- Everything a command can do: raise, commit and go on, branch, or halt. -/
theorem exec_cases (i : Instr) (s : State) :
    (i = .halt ∧ exec i s = .next (stop (finish (s.pc + 4) s))) ∨ (i ≠ .halt ∧ Ends s (exec i s)) := by
  by_cases hi : i = .halt
  · subst hi; exact Or.inl ⟨rfl, rfl⟩
  · exact Or.inr ⟨hi, exec_ends i s hi⟩

end Sys2Proof.Laws
end

