-- ==== Sys2Proof/Laws/PerInstr.lean ====
section
/-! SUPPORT. A fact about every command as syntax, one lemma per constructor: its opcode stands in bits [31:24] of its
word (30_encoding.md R91, R95). -/

namespace Sys2Proof.Laws

theorem opcodeField_formatN (op : BitVec 8) : opcodeField (formatN op) = op := by
  ext i hi
  simp only [opcodeField, formatN, BitVec.getElem_extractLsb', BitVec.getLsbD_append]
  grind

theorem opcodeField_formatI (op : BitVec 8) (d a : Reg) (imm : Imm16) : opcodeField (formatI op d a imm) = op := by
  ext i hi
  simp only [opcodeField, formatI, BitVec.getElem_extractLsb', BitVec.getLsbD_append]
  grind

theorem opcodeField_formatR (op : BitVec 8) (d a b c e : Reg) (f : BitVec 4) :
    opcodeField (formatR op d a b c e f) = op := by
  ext i hi
  simp only [opcodeField, formatR, BitVec.getElem_extractLsb', BitVec.getLsbD_append]
  grind

/-- The word of the command has the command's opcode in bits [31:24] (R91, R95). -/
def OpcodeField.Statement (i : Instr) : Prop := opcodeField (encode i) = i.opcode

theorem OpcodeField.nop : OpcodeField.Statement .nop := opcodeField_formatN _

theorem OpcodeField.halt : OpcodeField.Statement .halt := opcodeField_formatN _

theorem OpcodeField.j (imm : Imm16) : OpcodeField.Statement (.j imm) := opcodeField_formatI _ _ _ _

theorem OpcodeField.bz (a : Reg) (imm : Imm16) : OpcodeField.Statement (.bz a imm) := opcodeField_formatI _ _ _ _

theorem OpcodeField.bnz (a : Reg) (imm : Imm16) : OpcodeField.Statement (.bnz a imm) := opcodeField_formatI _ _ _ _

theorem OpcodeField.li (d : Reg) (imm : Imm16) : OpcodeField.Statement (.li d imm) := opcodeField_formatI _ _ _ _

theorem OpcodeField.lui (d : Reg) (imm : Imm16) : OpcodeField.Statement (.lui d imm) := opcodeField_formatI _ _ _ _

theorem OpcodeField.addi (d a : Reg) (imm : Imm16) : OpcodeField.Statement (.addi d a imm) :=
  opcodeField_formatI _ _ _ _

theorem OpcodeField.add (d a b : Reg) : OpcodeField.Statement (.add d a b) := opcodeField_formatR _ _ _ _ _ _ _

theorem OpcodeField.sub (d a b : Reg) : OpcodeField.Statement (.sub d a b) := opcodeField_formatR _ _ _ _ _ _ _

theorem OpcodeField.ldb (d a : Reg) (imm : Imm16) : OpcodeField.Statement (.ldb d a imm) :=
  opcodeField_formatI _ _ _ _

theorem OpcodeField.stb (d a : Reg) (imm : Imm16) : OpcodeField.Statement (.stb d a imm) :=
  opcodeField_formatI _ _ _ _

theorem OpcodeField.gadd (d a b : Reg) : OpcodeField.Statement (.gadd d a b) := opcodeField_formatR _ _ _ _ _ _ _

theorem OpcodeField.gmul (d a b : Reg) : OpcodeField.Statement (.gmul d a b) := opcodeField_formatR _ _ _ _ _ _ _

theorem OpcodeField.gdiv (d a b : Reg) : OpcodeField.Statement (.gdiv d a b) := opcodeField_formatR _ _ _ _ _ _ _

theorem OpcodeField.gexp (d a : Reg) : OpcodeField.Statement (.gexp d a) := opcodeField_formatR _ _ _ _ _ _ _

theorem OpcodeField.glog (d a : Reg) : OpcodeField.Statement (.glog d a) := opcodeField_formatR _ _ _ _ _ _ _

theorem OpcodeField.peval (d a b c : Reg) : OpcodeField.Statement (.peval d a b c) :=
  opcodeField_formatR _ _ _ _ _ _ _

theorem OpcodeField.lagr (d a b c e : Reg) : OpcodeField.Statement (.lagr d a b c e) :=
  opcodeField_formatR _ _ _ _ _ _ _

theorem OpcodeField.lbasis (d a c : Reg) : OpcodeField.Statement (.lbasis d a c) := opcodeField_formatR _ _ _ _ _ _ _

theorem OpcodeField.gdot (d a b c e : Reg) : OpcodeField.Statement (.gdot d a b c e) :=
  opcodeField_formatR _ _ _ _ _ _ _

theorem OpcodeField.hpack (d a b c : Reg) : OpcodeField.Statement (.hpack d a b c) :=
  opcodeField_formatR _ _ _ _ _ _ _

theorem OpcodeField.hunpack (d a b : Reg) : OpcodeField.Statement (.hunpack d a b) :=
  opcodeField_formatR _ _ _ _ _ _ _

theorem OpcodeField.b64e (d a b c : Reg) (nopad : Bool) : OpcodeField.Statement (.b64e d a b c nopad) :=
  opcodeField_formatR _ _ _ _ _ _ _

theorem OpcodeField.b64d (d a b c : Reg) : OpcodeField.Statement (.b64d d a b c) := opcodeField_formatR _ _ _ _ _ _ _

theorem OpcodeField.henc (d a b c : Reg) (nopad : Bool) : OpcodeField.Statement (.henc d a b c nopad) :=
  opcodeField_formatR _ _ _ _ _ _ _

theorem OpcodeField.hdec (d a b c : Reg) : OpcodeField.Statement (.hdec d a b c) := opcodeField_formatR _ _ _ _ _ _ _

end Sys2Proof.Laws
end

