-- ==== Sys2Proof/Laws/Step.lean ====
section
/-! SUPPORT. What a step and a host access can do, said once: whose turn reaches the engine, the cases of an engine step,
which target an allowed access reaches, and the one form of an answered read and of an answered write. -/

namespace Sys2Proof.Laws

open Sys2Proof.Machine

/-! ## The engine's turn -/

theorem step_of_no_turns {s : State} (h : s.turns = []) : step s = engineStep s := by simp [step, h]

theorem step_of_engine_turn {s : State} {rest : List Turn} (h : s.turns = .engine :: rest) :
    step s = engineStep { s with turns := rest } := by simp [step, h]

theorem runWord_of_error {s : State} {w : Word} {e : DecodeError} (h : decode w = .error e) :
    runWord w s = raise .illegalCmd w s := by simp [runWord, h]

theorem runWord_of_ok {s : State} {w : Word} {i : Instr} (h : decode w = .ok i) : runWord w s = exec i s := by
  simp [runWord, h]

/-- Everything an engine step can do, the guards included (R280, R281). -/
theorem engineStep_cases (s : State) :
    (s.busy = false ∧ engineStep s = .next s) ∨
    (s.busy = true ∧ s.abortReq = true ∧ engineStep s = .next (takeAbort s)) ∨
    (s.busy = true ∧ s.abortReq = false ∧ s.pc.toNat % 4 ≠ 0 ∧ engineStep s = raise .fetchMisaligned s.pc s) ∨
    (s.busy = true ∧ s.abortReq = false ∧ s.pc.toNat % 4 = 0 ∧ Config.lmemSize - 4 < s.pc.toNat ∧
      engineStep s = raise .fetchRange s.pc s) ∨
    (s.busy = true ∧ s.abortReq = false ∧ s.pc.toNat % 4 = 0 ∧ s.pc.toNat ≤ Config.lmemSize - 4 ∧
      engineStep s = runWord (fetchWord s) s) := by
  unfold engineStep
  cases hb : s.busy with
  | false => simp
  | true =>
    cases ha : s.abortReq with
    | true => simp
    | false =>
      by_cases h4 : s.pc.toNat % 4 = 0
      · by_cases hr : Config.lmemSize - 4 < s.pc.toNat
        · simp [h4, hr]
        · simp [h4, hr, Nat.not_lt.mp hr]
      · simp [h4]

/-! ## The host's turn -/

/-- GPRk is the target at 0x040 + 4k (R29). -/
theorem busTarget_gpr (k : Reg) :
    busTarget (BitVec.ofNat 21 (0x040 + 4 * k.toNat)).toNat .word = some (.gpr k) := by
  revert k; decide

/-- LMEM[a] is the target at 0x100000 + a, at every multiple of the width (R71). -/
theorem busTarget_window {a : Nat} {w : Width} (ha : a < Config.lmemSize) (hw : a % widthBytes w = 0) :
    busTarget (BitVec.ofNat 21 (0x100000 + a)).toNat w = some (.lmem a) := by
  have hsize : Config.lmemSize = 1048576 := rfl
  have hoff : (BitVec.ofNat 21 (0x100000 + a)).toNat = 0x100000 + a := by
    rw [BitVec.toNat_ofNat]; omega
  have halign : (0x100000 + a) % widthBytes w = 0 := by
    cases w <;> simp only [widthBytes] at hw ⊢ <;> omega
  have hbase : windowBase = 0x100000 := rfl
  rw [hoff, busTarget, hbase, if_neg (by omega), if_pos ⟨by omega, halign⟩, Nat.add_sub_cancel_left]

/-- An answered read whose value is specified. -/
theorem hostAccess_read {acc : Access} {s : State} {t : Target} (ht : busTarget acc.offset.toNat acc.width = some t)
    (ho : acc.op = .read) (hf : (s.busy && readsFreeWhenBusy t) = false) :
    hostAccess acc s =
      respond (.data (readTarget s acc.width (Config.freeWord s.freeDraws) t)) { s with freeDraws := s.freeDraws + 1 } := by
  simp only [hostAccess, ht, ho, hostRead, hf, Bool.false_eq_true, if_false]

/-- An answered read whose value is free (R32). -/
theorem hostAccess_read_free {acc : Access} {s : State} {t : Target}
    (ht : busTarget acc.offset.toNat acc.width = some t) (ho : acc.op = .read)
    (hf : (s.busy && readsFreeWhenBusy t) = true) :
    hostAccess acc s = respond (.data (Config.freeWord s.freeDraws)) { s with freeDraws := s.freeDraws + 1 } := by
  simp only [hostAccess, ht, ho, hostRead, hf, if_true]

/-- An answered write that takes effect. -/
theorem hostAccess_write {acc : Access} {s : State} {t : Target} {v : Word}
    (ht : busTarget acc.offset.toNat acc.width = some t) (ho : acc.op = .write v)
    (hd : (s.busy && dropsWhenBusy t) = false) :
    hostAccess acc s = respond .written (writeTarget t acc.width v s) := by
  simp only [hostAccess, ht, ho, hostWrite, hd, Bool.false_eq_true, if_false]

/-- A dropped write (R32). -/
theorem hostAccess_write_dropped {acc : Access} {s : State} {t : Target} {v : Word}
    (ht : busTarget acc.offset.toNat acc.width = some t) (ho : acc.op = .write v)
    (hd : (s.busy && dropsWhenBusy t) = true) : hostAccess acc s = respond .written (dropAccess s) := by
  simp only [hostAccess, ht, ho, hostWrite, hd, if_true]

/-- A bus error (R73). -/
theorem hostAccess_busError {acc : Access} {s : State} (ht : busTarget acc.offset.toNat acc.width = none) :
    hostAccess acc s = respond .busError s := by simp only [hostAccess, ht]

end Sys2Proof.Laws
end

