-- ==== Sys2Proof/Machine/Assembly.lean ====
section
/-! DEFINITION. The assembler's side of the commands: the pseudo-instructions and their expansions (30_encoding.md R102),
the branch offset it encodes and the text of a command (R101; log entry 17). No step of the machine uses this file. -/

namespace Sys2Proof.Machine

/-- The pseudo-instructions (R102). -/
inductive Pseudo where
  | gsub (d a b : Reg)
  | mov (d a : Reg)
  | la (d : Reg) (imm32 : Word)
  | b (imm : Imm16)
  | dec (d : Reg)
  deriving DecidableEq, Repr

/-- The commands a pseudo-instruction stands for, in their order (R102). -/
def expand : Pseudo → List Instr
  | .gsub d a b => [.gadd d a b]
  | .mov d a => [.addi d a 0]
  | .la d imm32 => [.li d (imm32.extractLsb' 0 16), .lui d (imm32.extractLsb' 16 16)]
  | .b imm => [.j imm]
  | .dec d => [.addi d d 0xFFFF]

/-- The imm16 the assembler encodes for a branch at `pc` to a label at `target`: `(target - pc) / 4` (R101). For a target
that no imm16 reaches, not a multiple of 4 from pc or outside -131072 to +131068 (R93), the spec gives no result. DESIGN
CHOICE: the quotient is rounded down and its low 16 bits are taken (log entry 20). -/
def branchOffset (pc target : Word) : Imm16 := ((target - pc).sshiftRight 2).setWidth 16

/-- `R0` to `R15` (R101). -/
def regText (r : Reg) : String := "R" ++ toString r.toNat

/-- Operands joined by a comma and a space (R101). -/
def operandText : List String → String
  | [] => ""
  | [x] => x
  | x :: xs => x ++ ", " ++ operandText xs

/-- A mnemonic and its operands (R101). -/
def commandText (mnemonic : String) : List String → String
  | [] => mnemonic
  | ops => mnemonic ++ " " ++ operandText ops

/-- `simm16(Ra)` (R101). -/
def displacementText (imm : Imm16) (a : Reg) : String := toString imm.toInt ++ "(" ++ regText a ++ ")"

/-- The assembly text of a command, immediates in decimal and branch targets as signed word offsets (R101). -/
def assembly (i : Instr) : String :=
  match i with
  | .nop => commandText i.mnemonic []
  | .halt => commandText i.mnemonic []
  | .j imm => commandText i.mnemonic [toString imm.toInt]
  | .bz a imm => commandText i.mnemonic [regText a, toString imm.toInt]
  | .bnz a imm => commandText i.mnemonic [regText a, toString imm.toInt]
  | .li d imm => commandText i.mnemonic [regText d, toString imm.toNat]
  | .lui d imm => commandText i.mnemonic [regText d, toString imm.toNat]
  | .addi d a imm => commandText i.mnemonic [regText d, regText a, toString imm.toInt]
  | .add d a b => commandText i.mnemonic [regText d, regText a, regText b]
  | .sub d a b => commandText i.mnemonic [regText d, regText a, regText b]
  | .ldb d a imm => commandText i.mnemonic [regText d, displacementText imm a]
  | .stb d a imm => commandText i.mnemonic [regText d, displacementText imm a]
  | .gadd d a b => commandText i.mnemonic [regText d, regText a, regText b]
  | .gmul d a b => commandText i.mnemonic [regText d, regText a, regText b]
  | .gdiv d a b => commandText i.mnemonic [regText d, regText a, regText b]
  | .gexp d a => commandText i.mnemonic [regText d, regText a]
  | .glog d a => commandText i.mnemonic [regText d, regText a]
  | .peval d a b c => commandText i.mnemonic [regText d, regText a, regText b, regText c]
  | .lagr d a b c e => commandText i.mnemonic [regText d, regText a, regText b, regText c, regText e]
  | .lbasis d a c => commandText i.mnemonic [regText d, regText a, regText c]
  | .gdot d a b c e => commandText i.mnemonic [regText d, regText a, regText b, regText c, regText e]
  | .hpack d a b c => commandText i.mnemonic [regText d, regText a, regText b, regText c]
  | .hunpack d a b => commandText i.mnemonic [regText d, regText a, regText b]
  | .b64e d a b c nopad =>
    commandText (if nopad then i.mnemonic ++ ".NOPAD" else i.mnemonic) [regText d, regText a, regText b, regText c]
  | .b64d d a b c => commandText i.mnemonic [regText d, regText a, regText b, regText c]
  | .henc d a b c nopad =>
    commandText (if nopad then i.mnemonic ++ ".NOPAD" else i.mnemonic) [regText d, regText a, regText b, regText c]
  | .hdec d a b c => commandText i.mnemonic [regText d, regText a, regText b, regText c]

end Sys2Proof.Machine
end

