-- ==== Sys2Proof/Tests/Slice0.lean ====
section
/-! SUPPORT. The model's own tests: the words of spec/95_test_vectors.md (V1 to V218) with the results that file gives,
each one decode or one step, and the smoke test of WellFormed. -/

namespace Sys2Proof.Tests

-- One theorem at a time: each is a kernel evaluation, and many at once take a thread each.
set_option Elab.async false

open Sys2Proof.Machine

/-! ## WellFormed: the one check refuses, and the other terms pass -/

theorem test_wellFormed_hunpack_same : (Instr.hunpack 5 0 5).formError = some (.hunpackSameRegister 5) := by decide

theorem test_wellFormed_hunpack_same_refused : (Instr.hunpack 5 0 5).wellFormed = false := by decide

theorem test_wellFormed_hunpack : (Instr.hunpack 5 0 6).wellFormed = true := by decide

/-! ## Decoding: one word of each command, and the illegal words (V167 to V202, P1 to P6) -/

theorem test_decode_nop : decode 0x01000000 = .ok (.nop) := by decide

theorem test_decode_halt : decode 0x02000000 = .ok (.halt) := by decide

theorem test_decode_j : decode 0x0300FFFF = .ok (.j 0xFFFF) := by decide

theorem test_decode_bz : decode 0x0402FFFE = .ok (.bz 2 0xFFFE) := by decide

theorem test_decode_bnz : decode 0x0503FFFC = .ok (.bnz 3 0xFFFC) := by decide

theorem test_decode_li : decode 0x10F0FFFF = .ok (.li 15 0xFFFF) := by decide

theorem test_decode_lui : decode 0x1110000F = .ok (.lui 1 0x000F) := by decide

theorem test_decode_addi : decode 0x12210001 = .ok (.addi 2 1 0x0001) := by decide

theorem test_decode_add : decode 0x13312000 = .ok (.add 3 1 2) := by decide

theorem test_decode_sub : decode 0x14763000 = .ok (.sub 7 6 3) := by decide

theorem test_decode_ldb : decode 0x20210005 = .ok (.ldb 2 1 0x0005) := by decide

theorem test_decode_stb : decode 0x21640000 = .ok (.stb 6 4 0x0000) := by decide

theorem test_decode_gadd : decode 0x30857000 = .ok (.gadd 8 5 7) := by decide

theorem test_decode_gmul : decode 0x31334000 = .ok (.gmul 3 3 4) := by decide

theorem test_decode_gdiv : decode 0x32635000 = .ok (.gdiv 6 3 5) := by decide

theorem test_decode_gexp : decode 0x33650000 = .ok (.gexp 6 5) := by decide

theorem test_decode_glog : decode 0x34210000 = .ok (.glog 2 1) := by decide

theorem test_decode_peval : decode 0x40612300 = .ok (.peval 6 1 2 3) := by decide

theorem test_decode_lagr : decode 0x4158A2B0 = .ok (.lagr 5 8 10 2 11) := by decide

theorem test_decode_lbasis : decode 0x42610300 = .ok (.lbasis 6 1 3) := by decide

theorem test_decode_gdot : decode 0x43762340 = .ok (.gdot 7 6 2 3 4) := by decide

theorem test_decode_hpack : decode 0x50123400 = .ok (.hpack 1 2 3 4) := by decide

theorem test_decode_hunpack : decode 0x51B9C000 = .ok (.hunpack 11 9 12) := by decide

theorem test_decode_b64e : decode 0x52123401 = .ok (.b64e 1 2 3 4 true) := by decide

theorem test_decode_b64d : decode 0x53123400 = .ok (.b64d 1 2 3 4) := by decide

theorem test_decode_henc : decode 0x54617800 = .ok (.henc 6 1 7 8 false) := by decide

theorem test_decode_hdec : decode 0x55968A00 = .ok (.hdec 9 6 8 10) := by decide

theorem test_illegal_opcode_00 : decode 0x00000000 = .error (.unassignedOpcode 0x00) := by decide

theorem test_illegal_opcode_06 : decode 0x06000000 = .error (.unassignedOpcode 0x06) := by decide

theorem test_illegal_opcode_ff : decode 0xFF000000 = .error (.unassignedOpcode 0xFF) := by decide

theorem test_illegal_unused_nop : decode 0x01000001 = .error (.nonzeroUnusedField 0x01000001) := by decide

theorem test_illegal_unused_j : decode 0x0310FFFF = .error (.nonzeroUnusedField 0x0310FFFF) := by decide

theorem test_illegal_unused_bz : decode 0x0421FFFE = .error (.nonzeroUnusedField 0x0421FFFE) := by decide

theorem test_illegal_unused_li : decode 0x10F1FFFF = .error (.nonzeroUnusedField 0x10F1FFFF) := by decide

theorem test_illegal_unused_add : decode 0x13312001 = .error (.nonzeroUnusedField 0x13312001) := by decide

theorem test_illegal_unused_gexp : decode 0x33210100 = .error (.nonzeroUnusedField 0x33210100) := by decide

theorem test_illegal_unused_peval : decode 0x40412340 = .error (.nonzeroUnusedField 0x40412340) := by decide

theorem test_illegal_unused_lagr : decode 0x41512345 = .error (.nonzeroUnusedField 0x41512345) := by decide

theorem test_illegal_unused_lbasis : decode 0x42123000 = .error (.nonzeroUnusedField 0x42123000) := by decide

theorem test_illegal_unused_b64e : decode 0x52123402 = .error (.nonzeroUnusedField 0x52123402) := by decide

theorem test_illegal_unused_b64d : decode 0x53123401 = .error (.nonzeroUnusedField 0x53123401) := by decide

theorem test_illegal_hunpack_same : decode 0x51505000 = .error (.hunpackSameRegister 5) := by decide

/-! ## One step of each command on a small running state

`bench` is the vectors' start state: BUSY = 1, the word at pc, the named registers and bytes; `completed` and `raised`
say the two ways a vector ends. -/

/-- A running engine at pc with a command word, registers and LMEM bytes. -/
def bench (pc : Nat) (w : Word) (regs : List (Reg × Word)) (mem : List (Nat × List Byte)) : State :=
  let s0 : State := { State.reset with pc := BitVec.ofNat 32 pc, busy := true }
  let s1 := regs.foldl (fun s rv => setReg s rv.1 rv.2) s0
  let s2 := mem.foldl (fun s ab => writeBytes s ab.1 ab.2) s1
  writeBytes s2 pc (bytesLE w)

/-- One step gives a next state of which p holds. -/
def gives (s : State) (p : State → Bool) : Bool :=
  match step s with
  | .next t => p t
  | .fault _ => false
  | .refused _ => false

/-- The command completed: the engine runs on at pc, and one command is counted. -/
def completed (t : State) (pc : Word) : Bool :=
  t.busy && !t.done && !t.err && t.pc == pc && t.cmdCnt == 1

/-- The command at 0 raised the error: the stop state of R276. -/
def raised (e : ErrCode) (info : Word) (t : State) : Bool :=
  !t.busy && !t.done && t.err && t.errCode == e && t.errInfo == info && t.errPC == 0 && t.pc == 0 && t.cmdCnt == 0

/-- V132. -/
theorem test_nop : gives (bench 0x10 0x01000000 [] []) (fun t => completed t 0x14) = true := by decide +kernel

/-- V133. -/
theorem test_halt : gives (bench 0x20 0x02000000 [] []) (fun t => t.pc == 0x24 && !t.busy && t.done && !t.err && t.cmdCnt == 1) = true := by decide +kernel

/-- V134. -/
theorem test_j_forward : gives (bench 0x40 0x03000003 [] []) (fun t => completed t 0x4C) = true := by decide +kernel

/-- V136. -/
theorem test_j_backward : gives (bench 0x40 0x0300FFF0 [] []) (fun t => completed t 0x0) = true := by decide +kernel

/-- V137. -/
theorem test_bz_taken : gives (bench 0x40 0x0402FFFE [] []) (fun t => completed t 0x38) = true := by decide +kernel

/-- V138. -/
theorem test_bz_not_taken : gives (bench 0x40 0x0402FFFE [(2, 0x100)] []) (fun t => completed t 0x44) = true := by decide +kernel

/-- V140. -/
theorem test_bnz_not_taken : gives (bench 0x50 0x0503FFFC [(3, 0x0)] []) (fun t => completed t 0x54) = true := by decide +kernel

/-- V141. -/
theorem test_bnz_tests_all_bits : gives (bench 0x50 0x05030002 [(3, 0x80000000)] []) (fun t => completed t 0x58) = true := by decide +kernel

/-- V147, with R250 clearing the high half. -/
theorem test_li : gives (bench 0 0x1010BEEF [(1, 0xFFFFFFFF)] []) (fun t => completed t 4 && readReg t 1 == 0xBEEF) = true := by decide +kernel

/-- V149. -/
theorem test_lui : gives (bench 0 0x1110FFFF [(1, 0x12345678)] []) (fun t => completed t 4 && readReg t 1 == 0xFFFF5678) = true := by decide +kernel

/-- V151. -/
theorem test_addi_negative : gives (bench 0 0x1221FFFF [(1, 0x0)] []) (fun t => completed t 4 && readReg t 2 == 0xFFFFFFFF) = true := by decide +kernel

/-- V152. -/
theorem test_addi_wraps_to_sign : gives (bench 0 0x12210001 [(1, 0x7FFFFFFF)] []) (fun t => completed t 4 && readReg t 2 == 0x80000000) = true := by decide +kernel

/-- V154. -/
theorem test_add_wraps : gives (bench 0 0x13312000 [(1, 0xFFFFFFFF), (2, 0x1), (3, 0x9)] []) (fun t => completed t 4 && readReg t 3 == 0x0) = true := by decide +kernel

/-- V155. -/
theorem test_add_same_register : gives (bench 0 0x13111000 [(1, 0x80000001)] []) (fun t => completed t 4 && readReg t 1 == 0x2) = true := by decide +kernel

/-- V156. -/
theorem test_sub_underflows : gives (bench 0 0x14312000 [(1, 0x3), (2, 0x5)] []) (fun t => completed t 4 && readReg t 3 == 0xFFFFFFFE) = true := by decide +kernel

/-- V159. -/
theorem test_ldb_base_is_destination : gives (bench 0 0x2011FFFF [(1, 0x100)] [(0xFF, [0xC3])]) (fun t => completed t 4 && readReg t 1 == 0xC3) = true := by decide +kernel

/-- V162. -/
theorem test_ldb_out_of_range : gives (bench 0 0x20217FFF [(1, 0xFFF00)] []) (raised .memRange 0x107EFF) = true := by decide +kernel

/-- V163. -/
theorem test_stb_low_byte_only : gives (bench 0 0x21210000 [(1, 0x200), (2, 0x12345678)] [(0x1FF, [0x11, 0x22, 0x33])]) (fun t => completed t 4 && readBytes t 0x1FF 3 == [0x11, 0x78, 0x33]) = true := by decide +kernel

/-- V165. -/
theorem test_stb_out_of_range : gives (bench 0 0x2121FFFF [(2, 0xAB)] []) (raised .memRange 0xFFFFFFFF) = true := by decide +kernel

/-- V1 with the high bits of V2. -/
theorem test_gadd_low_bytes : gives (bench 0 0x30312000 [(1, 0xFFFFFF53), (2, 0x123456CA)] []) (fun t => completed t 4 && readReg t 3 == 0x99) = true := by decide +kernel

/-- V5. -/
theorem test_gmul : gives (bench 0 0x31312000 [(1, 0x57), (2, 0x83)] []) (fun t => completed t 4 && readReg t 3 == 0xC1) = true := by decide +kernel

/-- V9. -/
theorem test_gmul_ignores_high_bits : gives (bench 0 0x31112000 [(1, 0x102), (2, 0x80)] []) (fun t => completed t 4 && readReg t 1 == 0x1B) = true := by decide +kernel

/-- V11. -/
theorem test_gdiv : gives (bench 0 0x32312000 [(1, 0x53), (2, 0xCA)] []) (fun t => completed t 4 && readReg t 3 == 0xB5) = true := by decide +kernel

/-- V13. -/
theorem test_gdiv_low_byte_zero : gives (bench 0 0x32312000 [(1, 0x7), (2, 0x100)] []) (raised .divZero 0x7) = true := by decide +kernel

/-- V19. -/
theorem test_gexp_255 : gives (bench 0 0x33210000 [(1, 0xFF)] []) (fun t => completed t 4 && readReg t 2 == 0x1) = true := by decide +kernel

/-- V18. -/
theorem test_gexp_254 : gives (bench 0 0x33210000 [(1, 0xFE)] []) (fun t => completed t 4 && readReg t 2 == 0xF6) = true := by decide +kernel

/-- V23. -/
theorem test_glog : gives (bench 0 0x34210000 [(1, 0xF6)] []) (fun t => completed t 4 && readReg t 2 == 0xFE) = true := by decide +kernel

/-- V25. -/
theorem test_glog_low_byte_zero : gives (bench 0 0x34210000 [(1, 0x12300)] []) (raised .logZero 0x0) = true := by decide +kernel

/-- V29. -/
theorem test_peval : gives (bench 0 0x40412300 [(1, 0x105), (2, 0x300), (3, 0x3)] [(0x300, [0x53, 0x1B, 0xC7])]) (fun t => completed t 4 && readReg t 4 == 0x27) = true := by decide +kernel

/-- V33. -/
theorem test_peval_count_256 : gives (bench 0 0x40412300 [(1, 0x2), (2, 0x300), (3, 0x100)] []) (raised .badCount 0x100) = true := by decide +kernel

/-- V49. -/
theorem test_lagr_stride_wraps : gives (bench 0 0x41512340 [(1, 0x400), (2, 0x410), (3, 0x3), (4, 0xFFFFFFFF)] [(0x400, [0x01, 0x03, 0x05]), (0x40E, [0x27, 0x88, 0x8F])]) (fun t => completed t 4 && readReg t 5 == 0x53) = true := by decide +kernel

/-- V45. -/
theorem test_lagr_duplicate_index : gives (bench 0 0x41512340 [(1, 0x400), (2, 0x410), (3, 0x4), (4, 0x1)] [(0x400, [0x05, 0x03, 0x03, 0x00]), (0x410, [0x00, 0x00, 0x00, 0x00])]) (raised .badIndex 0x10102) = true := by decide +kernel

/-- V57. -/
theorem test_lbasis_in_place : gives (bench 0 0x42120300 [(1, 0x400), (2, 0x400), (3, 0x3)] [(0x400, [0x01, 0x03, 0x05])]) (fun t => completed t 4 && readBytes t 0x400 3 == [0xAF, 0x46, 0xE8]) = true := by decide +kernel

/-- V58. -/
theorem test_lbasis_range_before_index : gives (bench 0 0x42120300 [(1, 0xFFFFE), (2, 0x400), (3, 0x3)] [(0x400, [0x01, 0x00, 0x05])]) (raised .memRange 0xFFFFE) = true := by decide +kernel

/-- V60. -/
theorem test_gdot : gives (bench 0 0x43512340 [(1, 0x500), (2, 0x410), (3, 0x3), (4, 0x1)] [(0x500, [0x00, 0x00, 0x05]), (0x410, [0x8F, 0x88, 0x27])]) (fun t => completed t 4 && readReg t 5 == 0xBB) = true := by decide +kernel

/-- V63. -/
theorem test_gdot_element_out_of_range : gives (bench 0 0x43512340 [(1, 0x500), (2, 0xFFFFF), (3, 0x2), (4, 0x1)] []) (raised .memRange 0x100000) = true := by decide +kernel

/-- V64. -/
theorem test_hpack : gives (bench 0 0x50123400 [(1, 0x200), (2, 0x100), (3, 0x3), (4, 0x250302)] [(0x100, [0x61, 0x62, 0x63])]) (fun t => completed t 4 && readBytes t 0x200 20 == [0x61, 0x62, 0x63, 0x00, 0x00, 0x00, 0x00, 0x00, 0x00, 0x00, 0x00, 0x00, 0x00, 0x00, 0x00, 0x00, 0x02, 0x03, 0x00, 0x25]) = true := by decide +kernel

/-- V69. -/
theorem test_hpack_length_before_hash : gives (bench 0 0x50123400 [(1, 0x200), (2, 0x100), (3, 0x11), (4, 0x250303)] []) (raised .badLength 0x11) = true := by decide +kernel

/-- V74. -/
theorem test_hunpack : gives (bench 0 0x51516000 [(1, 0x200)] [(0x200, [0x61, 0x00, 0x62, 0x00, 0x00, 0x00, 0x00, 0x00, 0x00, 0x00, 0x00, 0x00, 0x00, 0x00, 0x00, 0x00, 0x01, 0xFF, 0xFF, 0xFF])]) (fun t => completed t 4 && readReg t 5 == 0xFFFFFF01 && readReg t 6 == 0x3) = true := by decide +kernel

/-- V76. -/
theorem test_hunpack_vendor_hash : gives (bench 0 0x51516000 [(1, 0x200)] [(0x200, [0x61, 0x00, 0x00, 0x00, 0x00, 0x00, 0x00, 0x00, 0x00, 0x00, 0x00, 0x00, 0x00, 0x00, 0x00, 0x00, 0x80, 0x03, 0x00, 0x25])]) (raised .badHash 0x80) = true := by decide +kernel

/-- V94. -/
theorem test_b64e_padded_count_is_destination : gives (bench 0 0x52423400 [(2, 0x100), (3, 0x5), (4, 0x200)] [(0x100, [0x68, 0x65, 0x6C, 0x6C, 0x6F])]) (fun t => completed t 4 && readReg t 4 == 0x8 && readBytes t 0x200 8 == [0x61, 0x47, 0x56, 0x73, 0x62, 0x47, 0x38, 0x3D]) = true := by decide +kernel

/-- V92 with R164: three bytes need no padding. -/
theorem test_b64e_nopad : gives (bench 0 0x52123401 [(1, 0x200), (2, 0x100), (3, 0x3)] [(0x100, [0xFB, 0xFF, 0xBF])]) (fun t => completed t 4 && readReg t 4 == 0x4 && readBytes t 0x200 4 == [0x2D, 0x5F, 0x2D, 0x5F]) = true := by decide +kernel

/-- V96. -/
theorem test_b64d : gives (bench 0 0x53123400 [(1, 0x200), (2, 0x100), (3, 0x7)] [(0x100, [0x61, 0x47, 0x56, 0x73, 0x62, 0x47, 0x38])]) (fun t => completed t 4 && readReg t 4 == 0x5 && readBytes t 0x200 5 == [0x68, 0x65, 0x6C, 0x6C, 0x6F]) = true := by decide +kernel

/-- V100. -/
theorem test_b64d_nonzero_trailing_bits : gives (bench 0 0x53123400 [(1, 0x200), (2, 0x100), (3, 0x7)] [(0x100, [0x61, 0x47, 0x56, 0x73, 0x62, 0x47, 0x39])]) (raised .badBase64 0x6) = true := by decide +kernel

/-- V109. -/
theorem test_henc : gives (bench 0 0x54123400 [(1, 0x300), (2, 0x100), (3, 0x16)] [(0x100, [0x61, 0x62, 0x63, 0x00, 0x00, 0x00, 0x00, 0x00, 0x00, 0x00, 0x00, 0x00, 0x00, 0x00, 0x00, 0x00, 0x02, 0x03, 0x00, 0x01, 0x01, 0x7A])]) (fun t => completed t 4 && readReg t 4 == 0x2D && readBytes t 0x300 45 == [0x74, 0x73, 0x73, 0x7E, 0x76, 0x31, 0x7E, 0x61, 0x62, 0x63, 0x7E, 0x33, 0x7E, 0x59, 0x57, 0x4A, 0x6A, 0x41, 0x41, 0x41, 0x41, 0x41, 0x41, 0x41, 0x41, 0x41, 0x41, 0x41, 0x41, 0x41, 0x41, 0x41, 0x41, 0x41, 0x41, 0x49, 0x44, 0x41, 0x41, 0x45, 0x42, 0x65, 0x67, 0x3D, 0x3D]) = true := by decide +kernel

/-- V114. -/
theorem test_henc_inner_null : gives (bench 0 0x54123400 [(1, 0x300), (2, 0x100), (3, 0x14)] [(0x100, [0x61, 0x00, 0x62, 0x00, 0x00, 0x00, 0x00, 0x00, 0x00, 0x00, 0x00, 0x00, 0x00, 0x00, 0x00, 0x00, 0x00, 0x00, 0x00, 0x00])]) (raised .badIdent 0x1) = true := by decide +kernel

/-- V117. -/
theorem test_hdec : gives (bench 0 0x55123400 [(1, 0x300), (2, 0x100), (3, 0x2B)] [(0x100, [0x74, 0x73, 0x73, 0x7E, 0x76, 0x31, 0x7E, 0x61, 0x62, 0x63, 0x7E, 0x33, 0x7E, 0x59, 0x57, 0x4A, 0x6A, 0x41, 0x41, 0x41, 0x41, 0x41, 0x41, 0x41, 0x41, 0x41, 0x41, 0x41, 0x41, 0x41, 0x41, 0x41, 0x41, 0x41, 0x41, 0x49, 0x44, 0x41, 0x41, 0x45, 0x42, 0x65, 0x67])]) (fun t => completed t 4 && readReg t 4 == 0x16 && readBytes t 0x300 22 == [0x61, 0x62, 0x63, 0x00, 0x00, 0x00, 0x00, 0x00, 0x00, 0x00, 0x00, 0x00, 0x00, 0x00, 0x00, 0x00, 0x02, 0x03, 0x00, 0x01, 0x01, 0x7A]) = true := by decide +kernel

/-- V124. -/
theorem test_hdec_seventeen_ident_chars : gives (bench 0 0x55123400 [(1, 0x300), (2, 0x100), (3, 0x1D)] [(0x100, [0x74, 0x73, 0x73, 0x7E, 0x76, 0x31, 0x7E, 0x41, 0x42, 0x43, 0x44, 0x45, 0x46, 0x47, 0x48, 0x49, 0x4A, 0x4B, 0x4C, 0x4D, 0x4E, 0x4F, 0x50, 0x51, 0x7E, 0x33, 0x7E, 0x59, 0x51])]) (raised .badHuman 0x17) = true := by decide +kernel

/-! ## Fetch, abort and the host interface -/

/-- V143: a pc beyond LMEM. -/
theorem test_fetch_range :
    gives { State.reset with busy := true, pc := 0xFFFFFFFC }
      (fun t => t.errCode == .fetchRange && t.errPC == 0xFFFFFFFC && t.errInfo == 0xFFFFFFFC && !t.busy) = true := by
  decide +kernel

/-- V144: a misaligned pc. -/
theorem test_fetch_misaligned :
    gives { State.reset with busy := true, pc := 0x102 }
      (fun t => t.errCode == .fetchMisaligned && t.errPC == 0x102 && t.errInfo == 0x102 && !t.busy) = true := by
  decide +kernel

/-- V167: the zero word is illegal. -/
theorem test_step_illegal : gives (bench 0 0x00000000 [] []) (raised .illegalCmd 0) = true := by decide +kernel

/-- The state after one host access. -/
def afterAccess (off : Nat) (w : Width) (op : BusOp) (s : State) : State := hostAccess ⟨BitVec.ofNat 21 off, w, op⟩ s

/-- V203: ID, LMEMSZ and STATUS after reset. -/
theorem test_reset_reads :
    (afterAccess 0x000 .word .read State.reset).response = .data 0x54535301 ∧
    (afterAccess 0x020 .word .read State.reset).response = .data 0x00100000 ∧
    (afterAccess 0x008 .word .read State.reset).response = .data 0x00000000 ∧ irq State.reset = false := by
  decide +kernel

/-- V208: a GPR write while BUSY = 1 is dropped and sets HACC. -/
theorem test_busy_write_dropped :
    let t := afterAccess 0x044 .word (.write 5) (bench 0 0x03000000 [] [])
    readReg t 1 = 0 ∧ t.hacc = true ∧ statusWord t = 0x00000009 := by
  decide +kernel

/-- V209: ABORT, then the next boundary. -/
theorem test_abort :
    gives (afterAccess 0x004 .word (.write 2) (afterAccess 0x044 .word (.write 5) (bench 0 0x03000000 [] [])))
      (fun t => statusWord t == 0x00000E0C && t.errPC == 0 && t.errInfo == 0 && t.pc == 0) = true := by
  decide +kernel

/-- V206, V207: ERR drives irq when enabled, and W1C clears it. -/
theorem test_error_irq :
    gives (bench 0 0x32312000 [(1, 7)] []) (fun t =>
      let u := writeIrqen 0x4 t
      irq u && statusWord u == 0x00000504 && !irq (writeStatus 0x4 u) && (writeStatus 0x4 u).errInfo == 7) = true := by
  decide +kernel

/-- V214, V215, V218: reserved, narrow and misaligned accesses are bus errors. -/
theorem test_bus_errors :
    (afterAccess 0x024 .word (.write 1) State.reset).response = .busError ∧
    (afterAccess 0x008 .half .read State.reset).response = .busError ∧
    (afterAccess 0x100001 .half .read State.reset).response = .busError := by
  decide +kernel

/-- V216, V217: the window is little-endian. -/
theorem test_window :
    (afterAccess 0x100000 .word .read
      (afterAccess 0x100003 .byte (.write 0xAB) (writeBytes State.reset 0 [0x01, 0x02, 0x03, 0x04]))).response =
      .data 0xAB030201 := by
  decide +kernel

/-- R314 with V204: the host boots HALT at 0x100. -/
theorem test_boot_halts :
    gives ((bootTurns ⟨0x100, [0x02000000], 0x200, [], 0x100, [], 0⟩).foldl
        (fun s turn => match step { s with turns := [turn] } with | .next t => t | .fault _ => s | .refused _ => s)
        State.reset)
      (fun t => statusWord t == 0x00000002 && t.pc == 0x104 && t.cmdCnt == 1) = true := by
  decide +kernel

/-- The host's probe: GMUL's word as the first command after reset. -/
theorem test_withFetchWord :
    gives (State.reset.withFetchWord 32 0x31312000) (fun t => completed t 4) = true := by
  decide +kernel

theorem test_decodeTableWord : decodeTableWord 32 0x50123400 = some (.hpack 1 2 3 4) := by decide +kernel

/-- R101: the operand order and the NOPAD form. -/
theorem test_assembly :
    assembly (.stb 2 1 0xFFFF) = "STB R2, -1(R1)" ∧ assembly (.b64e 1 2 3 4 true) = "B64E.NOPAD R1, R2, R3, R4" := by
  decide +kernel

/-- R102: LA builds any 32-bit constant. -/
theorem test_expand_la : expand (.la 1 0x000FBEEF) = [.li 1 0xBEEF, .lui 1 0x000F] := by decide +kernel

/-- R101 with V137: a branch at 0x40 to 0x38. -/
theorem test_branchOffset : branchOffset 0x40 0x38 = 0xFFFE := by decide +kernel

end Sys2Proof.Tests
end

