-- ==== Sys2Proof/Tests/Witnesses.lean ====
section
/-! SUPPORT. For every statement that has hypotheses, a named theorem with a concrete input that meets them all: one for
each clause, at the values where the clauses meet. -/

namespace Sys2Proof.Tests

-- One theorem at a time: each is a kernel evaluation, and many at once take a thread each.
set_option Elab.async false

open Sys2Proof.Machine Sys2Proof.Statements

/-- The answer is a next state. -/
def isNext (o : Result) : Bool :=
  match o with
  | .next _ => true
  | .fault _ => false
  | .refused _ => false

/-- The next state an answer gives, or s if it gives none. -/
def nextOf (o : Result) (s : State) : State :=
  match o with
  | .next t => t
  | .fault _ => s
  | .refused _ => s

/-- A command's answer, evaluated, is the next state that `nextOf` names. -/
theorem next_of_isNext {o : Result} (s : State) (h : isNext o = true) : o = .next (nextOf o s) := by
  cases o with
  | next t => rfl
  | fault r => cases r
  | refused r => cases h

/-- The state after a command. -/
def after (i : Instr) (s : State) : State := nextOf (exec i s) s

/-! ## Encoding -/

theorem witness_DecodeOfEncode :
    (Instr.hunpack 0 15 1).wellFormed = true ∧ (Instr.henc 15 15 15 15 true).wellFormed = true := by decide

theorem witness_EveryWordIsOneCommandOrIllegal :
    (Instr.hunpack 0 15 1).wellFormed = true ∧ encode (.hunpack 0 15 1) = 0x510F1000 := by decide

theorem witness_DecodeAgreesWithTheMasks :
    decode 0x510F1000 = .ok (.hunpack 0 15 1) ∧ (⟨"HUNPACK", 0xFF000FFF, 0x51000000⟩ : OpRow) ∈ opcodeTable ∧
      (0x510F1000 : Word) &&& 0xFF000FFF = 0x51000000 ∧ fieldD 0x510F1000 ≠ fieldB 0x510F1000 := by decide

/-! ## The engine step -/

/-- The last address a command can stand at, with no turns and on the engine's turn. -/
theorem witness_StepRunsDecodedCommand :
    let s := bench 0xFFFFC 0x01000000 [] []
    s.busy = true ∧ s.abortReq = false ∧ s.pc.toNat % 4 = 0 ∧ s.pc.toNat ≤ Config.lmemSize - 4 ∧
      decode (byteAt s (s.pc.toNat + 3) ++ byteAt s (s.pc.toNat + 2) ++ byteAt s (s.pc.toNat + 1) ++
        byteAt s s.pc.toNat) = .ok .nop ∧
      s.turns = [] ∧ ({ s with turns := [.engine, .reset] } : State).turns = .engine :: [.reset] ∧
      ({ s with turns := [.host (regRead 0x000), .reset] } : State).turns = .host (regRead 0x000) :: [.reset] := by
  decide +kernel

/-- The engine's turn in both forms: no turn listed, and its own turn with turns after it. -/
theorem witness_EngineTurn (s : State) (rest : List Turn) :
    EngineTurn { s with turns := [] } { s with turns := [] } ∧
      EngineTurn { s with turns := .engine :: rest } { s with turns := rest } :=
  ⟨.inl ⟨rfl, rfl⟩, .inr ⟨rest, rfl, rfl⟩⟩

/-- One state u for each clause, each the engine's turn by `witness_EngineTurn`: an abort at an illegal pc, pc = 0xFFFFD, pc = 0x100000, a zero word and a HALT at the last
place. -/
theorem witness_EngineErrorsInOrder :
    let s := bench 0xFFFFC 0x02000000 [] []
    let z := bench 0xFFFFC 0x00000000 [] []
    s.busy = true ∧ s.turns = [] ∧ s.abortReq = false ∧
      ({ s with abortReq := true, pc := 0xFFFFD } : State).abortReq = true ∧
      ({ s with pc := 0xFFFFD } : State).pc.toNat % 4 ≠ 0 ∧
      ({ s with pc := 0x100000 } : State).pc.toNat % 4 = 0 ∧
      Config.lmemSize - 4 < ({ s with pc := 0x100000 } : State).pc.toNat ∧
      s.pc.toNat % 4 = 0 ∧ s.pc.toNat ≤ Config.lmemSize - 4 ∧ decode (wordAt s s.pc.toNat) = .ok .halt ∧
      decode (wordAt z z.pc.toNat) = .error (.unassignedOpcode 0x00) := by
  decide +kernel

/-- An unassigned opcode, a NOP with bit 0 set, and HUNPACK with d = b. -/
theorem witness_IllegalWordsRaiseIllegalCmd :
    let s (w : Word) := bench 0 w [] []
    (s 0).busy = true ∧ (s 0).turns = [] ∧ (s 0).abortReq = false ∧ (s 0).pc = 0 ∧
      (∀ r ∈ opcodeTable, opcodeField (wordAt (s 0xFF000000) 0) ≠ opcodeField r.value) ∧
      opcodeField (wordAt (s 0x01000001) 0) = opcodeField 0x01000000 ∧
      wordAt (s 0x01000001) 0 &&& 0xFFFFFFFF ≠ 0x01000000 ∧
      opcodeField (wordAt (s 0x51505000) 0) = 0x51 ∧
      fieldD (wordAt (s 0x51505000) 0) = fieldB (wordAt (s 0x51505000) 0) := by
  decide +kernel

/-- A running engine, a pending abort, and a host START each make a step from a sound state. -/
theorem witness_EveryStepKeepsTheInvariant :
    let s := bench 0 0x21210000 [(1, 0xFFFFF)] []
    let a : State := { s with abortReq := true }
    let h : State := { State.reset with turns := [.host (regWrite 0x004 1)] }
    Sound s ∧ step s = .next (nextOf (step s) s) ∧ Sound a ∧ step a = .next (nextOf (step a) a) ∧
      Sound h ∧ step h = .next (nextOf (step h) h) := by
  refine ⟨by decide +kernel, next_of_isNext _ (by decide +kernel), by decide +kernel,
    next_of_isNext _ (by decide +kernel), by decide +kernel, next_of_isNext _ (by decide +kernel)⟩

/-- GDIV by 0. -/
theorem witness_ErrorsArePrecise :
    let s := bench 0 0x32312000 [(1, 7)] []
    s.err = false ∧ exec (.gdiv 3 1 2) s = .next (after (.gdiv 3 1 2) s) ∧ (after (.gdiv 3 1 2) s).err = true := by
  refine ⟨by decide +kernel, next_of_isNext _ (by decide +kernel), by decide +kernel⟩

/-- A command that completes, and HALT. -/
theorem witness_CompletedCommands :
    let s := bench 0 0x02000000 [] []
    s.err = false ∧ exec (.stb 2 1 0) s = .next (after (.stb 2 1 0) s) ∧ (after (.stb 2 1 0) s).err = false ∧
      (Instr.stb 2 1 0) ≠ .halt ∧ exec .halt s = .next (after .halt s) ∧ (after .halt s).err = false := by
  refine ⟨by decide +kernel, next_of_isNext _ (by decide +kernel), by decide +kernel, by decide,
    next_of_isNext _ (by decide +kernel), by decide +kernel⟩

/-- HPACK completes: R5 is no destination of it, and 0x213 is the last byte of its store. -/
theorem witness_CommandsChangeOnlyTheirDestinations :
    let s := bench 0 0x50123400 [(1, 0x200), (4, 0x00250302)] []
    exec (.hpack 1 2 3 4) s = .next (after (.hpack 1 2 3 4) s) ∧ (5 : Reg) ∉ destRegs (.hpack 1 2 3 4) ∧
      (storeRange (.hpack 1 2 3 4) s).1 + (storeRange (.hpack 1 2 3 4) s).2 ≤ 0x214 ∧
      0x1FF < (storeRange (.hpack 1 2 3 4) s).1 := by
  refine ⟨next_of_isNext _ (by decide +kernel), by decide, by decide +kernel, by decide +kernel⟩

theorem witness_NoCommandMisalignsPc :
    let s := bench 0xFFFFC 0x0300FFFF [] []
    s.pc.toNat % 4 = 0 ∧ exec (.j 0xFFFF) s = .next (after (.j 0xFFFF) s) := by
  exact ⟨by decide +kernel, next_of_isNext _ (by decide +kernel)⟩

/-- A run that halts, one that faults and one that is aborted. -/
theorem witness_RunsEndHaltedFaultedOrAborted :
    let s := bench 0 0x02000000 [] []
    let f := bench 0 0x00000000 [] []
    let a : State := { s with abortReq := true }
    (Sound s ∧ s.busy = true ∧ s.turns = [] ∧ (nextOf (step s) s).busy = false) ∧
      (Sound f ∧ f.busy = true ∧ f.turns = [] ∧ (nextOf (step f) f).busy = false) ∧
      (Sound a ∧ a.busy = true ∧ a.turns = [] ∧ (nextOf (step a) a).busy = false) := by
  decide +kernel

theorem witness_OnlyStartWakesTheEngine :
    let s : State := { State.reset with turns := [.host (regWrite 0x004 1)] }
    s.busy = false ∧ step s = .next (nextOf (step s) s) ∧ (nextOf (step s) s).busy = true := by
  exact ⟨by decide +kernel, next_of_isNext _ (by decide +kernel), by decide +kernel⟩

theorem witness_IdleEngineTurnChangesNothing :
    State.reset.busy = false ∧ State.reset.turns = [] ∧
      ({ State.reset with turns := [.engine, .reset] } : State).turns = .engine :: [.reset] := by
  decide

/-! ## Load and store -/

/-- The last byte of LMEM and the first address beyond it. -/
theorem witness_LdbAndStbAccessOneByte :
    let ea (v : Word) : Word := BitVec.ofInt 32 ((readReg (bench 0 0x20210001 [(1, v)] []) 1).toNat + (1 : Imm16).toInt)
    (ea 0xFFFFE).toNat < Config.lmemSize ∧ Config.lmemSize ≤ (ea 0xFFFFF).toNat := by
  decide +kernel

/-- STB into the last byte of the next command. -/
theorem witness_NextFetchSeesAStore :
    let s := bench 0 0x21210000 [(1, 7), (2, 0x01)] []
    exec (.stb 2 1 0) s = .next (after (.stb 2 1 0) s) ∧ s.err = false ∧ (after (.stb 2 1 0) s).err = false ∧ 3 < 4 ∧
      (effectiveAddress s 1 0).toNat = (after (.stb 2 1 0) s).pc.toNat + 3 := by
  exact ⟨next_of_isNext _ (by decide +kernel), by decide +kernel, by decide +kernel, by decide, by decide +kernel⟩

/-! ## Field, polynomial and interpolation -/

/-- The least non-zero operand byte, and a zero byte under set high bits. -/
theorem witness_GdivGlog :
    let s := bench 0 0x32312000 [(1, 0x100), (2, 0x101)] []
    lowByte s 2 ≠ 0 ∧ lowByte s 1 = 0 := by
  decide +kernel

theorem witness_TablesDefineTheField : (255 : Byte) ≠ 0 ∧ 254 ≤ 254 := by decide

/-- Counts 0 and 256; 255 coefficients that miss LMEM's end by one; and 1 and 255 that reach it. -/
theorem witness_PevalEvaluatesThePolynomial :
    let s (base n : Word) := bench 0 0x40412300 [(2, base), (3, n)] []
    ¬ CountInRange (readReg (s 0 0) 3) ∧ ¬ CountInRange (readReg (s 0 256) 3) ∧
      (CountInRange (readReg (s 0xFFF02 255) 3) ∧ ¬ InLmem (readReg (s 0xFFF02 255) 2) 255) ∧
      (CountInRange (readReg (s 0xFFF01 255) 3) ∧ InLmem (readReg (s 0xFFF01 255) 2) 255) ∧
      (CountInRange (readReg (s 0xFFFFF 1) 3) ∧ InLmem (readReg (s 0xFFFFF 1) 2) 1) := by
  decide +kernel

/-- Good indices; a zero at position 2; a duplicate of position 0 at position 2, and the empty sequence. -/
theorem witness_IndexCheckReportsTheFirstFailure :
    let good (U : List Byte) (j : Nat) : Prop := U.getD j 0 ≠ 0 ∧ ∀ i, i < j → U.getD i 0 ≠ U.getD j 0
    (∀ j, j < 2 → good [1, 255] j) ∧ indexError [1, 255] = none ∧ indexError [] = none ∧
      (∀ j', j' < 2 → good [1, 255, 0] j') ∧ ([1, 255, 0] : List Byte).getD 2 0 = 0 ∧
      (∀ j', j' < 2 → good [255, 1, 255] j') ∧ ([255, 1, 255] : List Byte).getD 2 0 ≠ 0 ∧
      ([255, 1, 255] : List Byte).getD 0 0 = ([255, 1, 255] : List Byte).getD 2 0 := by
  decide +kernel

/-- LAGR's clauses: counts 0 and 256; U one byte past the end; the second V element at 0x100000, and at 2^32 - 1 when the
stride steps back; a zero index; and two good shares. -/
theorem witness_LagrInterpolatesAtZero :
    let s (ua vb st n : Word) (U : List Byte) :=
      bench 0 0x41512340 [(1, ua), (2, vb), (3, n), (4, st)] [(ua.toNat, U)]
    ¬ CountInRange (readReg (s 0x400 0 1 0 []) 3) ∧ ¬ CountInRange (readReg (s 0x400 0 1 256 []) 3) ∧
      (CountInRange 2 ∧ ¬ InLmem 0xFFFFF 2) ∧ (CountInRange 2 ∧ InLmem 0xFFFFE 2) ∧
      (Config.lmemSize ≤ (element 0xFFFFF 1 1).toNat ∧ ∀ i', i' < 1 → (element 0xFFFFF 1 i').toNat < Config.lmemSize) ∧
      (Config.lmemSize ≤ (element 0 0xFFFFFFFF 1).toNat ∧
        ∀ i', i' < 1 → (element 0 0xFFFFFFFF i').toNat < Config.lmemSize) ∧
      (∀ i, i < 2 → (element 1 0xFFFFFFFF i).toNat < Config.lmemSize) ∧
      indexError (readBytes (s 0xFFFFE 1 0xFFFFFFFF 2 [1, 0]) 0xFFFFE 2) = some 1 ∧
      indexError (readBytes (s 0xFFFFE 1 0xFFFFFFFF 2 [1, 2]) 0xFFFFE 2) = none := by
  decide +kernel

/-- LBASIS's clauses, with the destination one byte past the end and at it. -/
theorem witness_LbasisStoresTheBasis :
    let s (dst : Word) (U : List Byte) := bench 0 0x42120300 [(1, dst), (2, 0x400), (3, 2)] [(0x400, U)]
    ¬ CountInRange 0 ∧ ¬ CountInRange 256 ∧ CountInRange (readReg (s 0 []) 3) ∧ ¬ InLmem 0xFFFFF 2 ∧
      InLmem (readReg (s 0 []) 2) 2 ∧ ¬ InLmem (readReg (s 0xFFFFF []) 1) 2 ∧ InLmem (readReg (s 0xFFFFE []) 1) 2 ∧
      indexError (readBytes (s 0xFFFFE [7, 7]) 0x400 2) = some 0x00010001 ∧
      indexError (readBytes (s 0xFFFFE [7, 8]) 0x400 2) = none := by
  decide +kernel

/-- GDOT's clauses: as LAGR's, with no index check. -/
theorem witness_GdotSumsTheProducts :
    let s := bench 0 0x43512340 [(1, 0xFFF01), (2, 0xFFF01), (3, 255), (4, 1)] []
    ¬ CountInRange 0 ∧ ¬ CountInRange 256 ∧ CountInRange (readReg s 3) ∧ InLmem (readReg s 1) 255 ∧
      ¬ InLmem 0xFFF02 255 ∧
      (∀ i, i < 255 → (element (readReg s 2) (readReg s 4) i).toNat < Config.lmemSize) ∧
      (Config.lmemSize ≤ (element 0xFFF02 1 254).toNat ∧
        ∀ i', i' < 254 → (element 0xFFF02 1 i').toNat < Config.lmemSize) := by
  decide +kernel

/-- LBASIS of the indices 1, 3, 5 at 0x400 to 0x500, with V at 0x410. -/
def basisBench : State :=
  bench 0 0x42120300 [(1, 0x500), (2, 0x400), (3, 3), (4, 1), (5, 0x410)]
    [(0x400, [1, 3, 5]), (0x410, [0x8F, 0x88, 0x27])]

theorem witness_LbasisThenGdotIsLagr :
    let t := after (.lbasis 1 2 3) basisBench
    basisBench.err = false ∧ exec (.lbasis 1 2 3) basisBench = .next t ∧ t.err = false ∧
      readReg t 1 = readReg basisBench 1 ∧ readReg t 3 = readReg basisBench 3 ∧ readReg t 5 = readReg basisBench 5 ∧
      readReg t 4 = readReg basisBench 4 ∧
      ∀ k, k < (readReg basisBench 3).toNat →
        (element (readReg basisBench 5) (readReg basisBench 4) k).toNat < Config.lmemSize ∧
        byteAt t (element (readReg basisBench 5) (readReg basisBench 4) k).toNat =
          byteAt basisBench (element (readReg basisBench 5) (readReg basisBench 4) k).toNat := by
  refine ⟨by decide +kernel, next_of_isNext _ (by decide +kernel), by decide +kernel, by decide +kernel,
    by decide +kernel, by decide +kernel, by decide +kernel, by decide +kernel⟩

theorem witness_InterpolationRecoversTheSecret :
    (∀ u ∈ ([1, 255] : List Byte), u ≠ 0) ∧ ([1, 255] : List Byte).Nodup ∧ ([1, 255] : List Byte).length ≤ 255 ∧
      ((0x53 : Byte) :: [0x1B]).length ≤ ([1, 255] : List Byte).length := by
  decide

/-! ## Codec -/

/-- HPACK's clauses: identifier lengths 17 and 16, hash codes 3 and 2, an identifier and a destination one byte past the
end and at it, and a first bad byte. -/
theorem witness_HpackPacksTheHeader :
    let s := bench 0 0x50123400 [(1, 0xFFFEC), (2, 0xFFFF0), (3, 16), (4, 0xFFFFFF02)]
      [(0xFFFF0, List.replicate 16 0x61)]
    16 < (17 : Word).toNat ∧ (readReg s 3).toNat ≤ 16 ∧ 2 < ((3 : Word).extractLsb' 0 8).toNat ∧
      ((readReg s 4).extractLsb' 0 8).toNat ≤ 2 ∧ ¬ InLmem 0xFFFF1 16 ∧ InLmem (readReg s 2) 16 ∧
      ¬ InLmem 0xFFFED 20 ∧ InLmem (readReg s 1) 20 ∧
      (∀ k, k < 16 → inIdset ((readBytes s 0xFFFF0 16).getD k 0) = true) ∧
      (inIdset (([0x61, 0x7E] : List Byte).getD 1 0) = false ∧
        ∀ k', k' < 1 → inIdset (([0x61, 0x7E] : List Byte).getD k' 0) = true) := by
  decide +kernel

/-- HUNPACK's clauses: the source one byte past the end and at it, hash codes 3 and 2. -/
theorem witness_HunpackUnpacksTheHeader :
    let s (hash : Byte) := bench 0 0x51516000 [(1, 0xFFFEC)] [(0xFFFFC, [hash])]
    (5 : Reg) ≠ 6 ∧ ¬ InLmem 0xFFFED 20 ∧ InLmem (readReg (s 2) 1) 20 ∧ 2 < (byteAt (s 3) (0xFFFEC + 16)).toNat ∧
      (byteAt (s 2) (0xFFFEC + 16)).toNat ≤ 2 := by
  decide +kernel

/-- HPACK of `abc`, and HUNPACK of what it wrote. -/
def headerBench : State := bench 0 0x50123400 [(1, 0x200), (2, 0x100), (3, 3), (4, 0x00250302)] [(0x100, [0x61, 0x62, 0x63])]

theorem witness_HunpackOfHpackGivesTheFields :
    let t := after (.hpack 1 2 3 4) headerBench
    headerBench.err = false ∧ exec (.hpack 1 2 3 4) headerBench = .next t ∧ t.err = false ∧ (5 : Reg) ≠ 6 ∧
      readReg t 1 = readReg headerBench 1 := by
  exact ⟨by decide +kernel, next_of_isNext _ (by decide +kernel), by decide +kernel, by decide, by decide +kernel⟩

/-- Lengths 3, 4 and 5: a whole group, and the two tails. -/
theorem witness_Base64EncodesByGroups :
    0 < ([1, 2, 3] : List Byte).length / 3 ∧ ([1, 2, 3] : List Byte).length % 3 = 0 ∧
      ([1, 2, 3, 4] : List Byte).length % 3 = 1 ∧ ([1, 2, 3, 4, 5] : List Byte).length % 3 = 2 := by
  decide

/-- "QQ==" is two alphabet bytes and two pads, and decodes. -/
theorem witness_Base64RoundTripAndLength :
    AlphabetThenPads [0x51, 0x51, 0x3D, 0x3D] [0x51, 0x51] 2 ∧ b64dec [0x51, 0x51, 0x3D, 0x3D] = .ok [0x41] := by
  decide +kernel

/-- One input for each check of R163, none of which ends in a pad before its pads. -/
theorem witness_Base64RejectsAtTheFirstFailure :
    let ends (body : List Byte) (p n : Nat) : Prop :=
      body.getLast? ≠ some padChar ∧ (body ++ List.replicate p padChar).length = n
    (ends [0x51, 0x2B] 0 2 ∧ isB64 0x2B = false ∧ isB64 0x51 = true) ∧ ends [0x51, 0x51] 3 5 ∧
      (ends [0x51] 2 3 ∧ [0x51].length % 4 = 1) ∧ (ends [0x51, 0x51] 1 3 ∧ 3 % 4 ≠ 0) ∧
      (ends [0x51, 0x52] 2 4 ∧ (b64Val 0x52).getD 0 &&& 0x0F ≠ 0) ∧
      (ends [0x51, 0x51, 0x52] 0 3 ∧ (b64Val 0x52).getD 0 &&& 0x03 ≠ 0) := by
  decide +kernel

/-- A source at the end and one past it; a destination of 8 bytes for 5, at the end and one past it. -/
theorem witness_B64eEncodesARange :
    let s (dst src n : Word) := bench 0 0x52123400 [(1, dst), (2, src), (3, n)] []
    ¬ InLmem (readReg (s 0 0xFFFFC 5) 2) 5 ∧ InLmem (readReg (s 0 0xFFFFB 5) 2) 5 ∧
      ¬ InLmem (readReg (s 0xFFFF9 0xFFFFB 5) 1) (b64len 5 true) ∧
      InLmem (readReg (s 0xFFFF8 0xFFFFB 5) 1) (b64len 5 true) := by
  decide +kernel

/-- The source at the end and one past it; an accepted and a rejected text; a destination at the end and one past it. -/
theorem witness_B64dDecodesARange :
    let s (dst src : Word) (text : List Byte) := bench 0 0x53123400 [(1, dst), (2, src), (3, 2)] [(0xFFFFE, text)]
    ¬ InLmem (readReg (s 0 0xFFFFF []) 2) 2 ∧ InLmem (readReg (s 0 0xFFFFE []) 2) 2 ∧
      b64dec (readBytes (s 0 0xFFFFE [0x51, 0x52]) 0xFFFFE 2) = .error 1 ∧
      b64dec (readBytes (s 0 0xFFFFE [0x51, 0x51]) 0xFFFFE 2) = .ok [0x41] ∧
      ¬ InLmem (readReg (s 0x100000 0xFFFFE [0x51, 0x51]) 1) 1 ∧ InLmem (readReg (s 0xFFFFF 0xFFFFE [0x51, 0x51]) 1) 1 := by
  decide +kernel

/-- A header alone, identifier `id`, at the end of LMEM. -/
def shareBench (dst : Word) (id : List Byte) : State :=
  bench 0 0x54123400 [(1, dst), (2, 0xFFFEC), (3, 20)] [(0xFFFEC, packHeader id 2 3 0 0)]

/-- Lengths 19 and 20; a source past the end; a bad second identifier byte; and a text of 39 bytes that ends at the end
of LMEM or one byte past it. -/
theorem witness_HencEncodesAShare :
    let share (id : List Byte) := readBytes (shareBench 0xFFFD9 id) 0xFFFEC 20
    (19 : Word).toNat < 20 ∧ 20 ≤ (readReg (shareBench 0 []) 3).toNat ∧ ¬ InLmem 0xFFFED 20 ∧
      InLmem (readReg (shareBench 0 []) 2) 20 ∧
      (1 < identLength (share [0x61, 0x7E]) ∧ inIdset ((share [0x61, 0x7E]).getD 1 0) = false ∧
        ∀ q', q' < 1 → inIdset ((share [0x61, 0x7E]).getD q' 0) = true) ∧
      IdentOK (share [0x61]) ∧ (humanText (share [0x61]) 1 true).length = 39 ∧ ¬ InLmem 0xFFFDA 39 ∧
      InLmem (readReg (shareBench 0xFFFD9 []) 1) 39 := by
  decide +kernel

/-- "tss~v1~~0~" and two Base64 bytes at the end of LMEM. -/
def textBench (dst : Word) (body : List Byte) : State :=
  bench 0 0x55123400 [(1, dst), (2, 0xFFFF4), (3, 12)] [(0xFFFF4, humanPrefix ++ [0x7E, 0x30, 0x7E] ++ body)]

/-- HDEC's clauses: a source past the end; a text that ends early; a rejected Base64 part; a destination at the end and
one past it. -/
theorem witness_HdecDecodesAText :
    let text (body : List Byte) := readBytes (textBench 0xFFFFF body) 0xFFFF4 12
    ¬ InLmem 0xFFFF5 12 ∧ InLmem (readReg (textBench 0 []) 2) 12 ∧ hparse (text [0x2B, 0x51]) = .error 10 ∧
      hparse (text [0x51, 0x52]) = .ok 10 ∧ b64dec ((text [0x51, 0x52]).drop 10) = .error 1 ∧
      hparse (text [0x51, 0x51]) = .ok 10 ∧ b64dec ((text [0x51, 0x51]).drop 10) = .ok [0x41] ∧
      ¬ InLmem (readReg (textBench 0x100000 []) 1) 1 ∧ InLmem (readReg (textBench 0xFFFFF []) 1) 1 := by
  decide +kernel

/-- The text of a header at 0x300, decoded to the last 20 bytes of LMEM. -/
theorem witness_HdecOfHencGivesTheShare :
    let s := shareBench 0x300 [0x61]
    let t := after (.henc 1 2 3 4 true) s
    s.err = false ∧ exec (.henc 1 2 3 4 true) s = .next t ∧ t.err = false ∧ readReg t 1 = readReg s 1 ∧
      InLmem (readReg t 2) (readReg s 3).toNat := by
  refine ⟨by decide +kernel, next_of_isNext _ (by decide +kernel), by decide +kernel, by decide +kernel,
    by decide +kernel⟩

/-! ## Host interface -/

/-- The edges of the map: 0x020, 0x024, 0x03F, 0x040, 0x07C, 0x080, 0x0FFFFC, 0x100000, 0x1FFFFF, and a halfword at an
odd window offset. -/
theorem witness_BusErrorsExactly :
    ¬ BusErrorAccess (regRead 0x020) ∧ BusErrorAccess (regRead 0x024) ∧ BusErrorAccess (regRead 0x03F) ∧
      ¬ BusErrorAccess (regRead 0x040) ∧ ¬ BusErrorAccess (regRead 0x07C) ∧ BusErrorAccess (regRead 0x080) ∧
      BusErrorAccess (regRead 0x0FFFFC) ∧ ¬ BusErrorAccess (windowRead 0 .byte) ∧
      ¬ BusErrorAccess (windowRead 0xFFFFF .byte) ∧ BusErrorAccess (windowRead 0xFFFFF .half) ∧
      BusErrorAccess ⟨0x008, .half, .read⟩ ∧ BusErrorAccess (regRead 0x009) ∧
      (regWrite 0x000 1).op = .write 1 ∧ (regRead 0x000).op = .read := by
  refine ⟨?_, ?_, ?_, ?_, ?_, ?_, ?_, ?_, ?_, ?_, ?_, ?_, ?_, ?_⟩ <;> decide +kernel

/-- A running engine; the last window word; and START with ABORT in the written word. -/
theorem witness_HostAccessesWhileBusy :
    (bench 0 0 [] []).busy = true ∧ 0xFFFFC < Config.lmemSize ∧ 0xFFFFC % widthBytes .word = 0 ∧
      (3 : Word).getLsbD 0 = true ∧ (2 : Word).getLsbD 0 = false := by
  decide +kernel

/-- Busy and idle, with and without START. -/
theorem witness_CtrlStartsAndAborts :
    (bench 0 0 [] []).busy = true ∧ State.reset.busy = false ∧ (3 : Word).getLsbD 0 = true ∧
      (2 : Word).getLsbD 0 = false := by
  decide +kernel

theorem witness_IdleHost : State.reset.busy = false := by decide

/-- The last byte, halfword and word of the window. -/
theorem witness_WindowIsLittleEndian :
    State.reset.busy = false ∧ 0xFFFFF < Config.lmemSize ∧ 0xFFFFF % widthBytes .byte = 0 ∧
      0xFFFFE % widthBytes .half = 0 ∧ 0xFFFFC % widthBytes .word = 0 := by
  decide

/-- A reset of a running and of an idle engine, and power-on. -/
theorem witness_ResetLeavesTheTableValues :
    let s : State := { bench 0 0 [] [] with turns := [.reset] }
    let i : State := { State.reset with turns := [.reset] }
    let p : State := { s with turns := [.powerOn] }
    s.turns = .reset :: [] ∧ s.busy = true ∧ i.turns = .reset :: [] ∧ i.busy = false ∧ p.turns = .powerOn :: [] := by
  decide +kernel

/-- One command in LMEM's last word, one data byte just below it, two registers. -/
def bootImage : BootImage :=
  ⟨0xFFFFC, [0x02000000], 0xFFFFB, [0xAB], 0xFFFFC, [(0, 1), (15, 0xFFFFFFFF)], 0xFFFFFFFF⟩

theorem witness_BootLoadsAndStarts :
    let s : State := { State.reset with turns := bootTurns bootImage ++ [.engine] }
    s.busy = false ∧ s.turns = bootTurns bootImage ++ [.engine] ∧ bootImage.codeAddr % 4 = 0 ∧
      bootImage.codeAddr + 4 * bootImage.code.length ≤ Config.lmemSize ∧
      bootImage.dataAddr + bootImage.data.length ≤ Config.lmemSize ∧
      (bootImage.codeAddr + 4 * bootImage.code.length ≤ bootImage.dataAddr ∨
        bootImage.dataAddr + bootImage.data.length ≤ bootImage.codeAddr) ∧
      (bootImage.regs.map Prod.fst).Nodup := by
  decide +kernel

end Sys2Proof.Tests
end

section
/-! The host's writes to CTRL and STATUS (10_state.md R34, R36; 60_exceptions.md R290): one rule for a register write that
is never dropped, what such a write does to CTRL case by case, and the STATUS write bit by bit. -/

namespace Sys2Proof.Proofs

open Sys2Proof.Machine Sys2Proof.Statements Sys2Proof.Laws

/-! ## Accesses to a register offset -/

/-- CTRL is the target at 0x004 (R29). -/
theorem busTarget_ctrl : busTarget (BitVec.ofNat 21 0x004).toNat .word = some .ctrl := by decide

/-- STATUS is the target at 0x008 (R29). -/
theorem busTarget_status : busTarget (BitVec.ofNat 21 0x008).toNat .word = some .status := by decide

/-- A write to a register that R32 never drops takes effect whether or not the engine runs. -/
theorem hostAccess_regWrite_of_not_drops {off : Nat} {t : Target}
    (ht : busTarget (BitVec.ofNat 21 off).toNat .word = some t) (hd : dropsWhenBusy t = false) (s : State) (v : Word) :
    hostAccess (regWrite off v) s = respond .written (writeTarget t .word v s) :=
  hostAccess_write ht rfl (by rw [hd, Bool.and_false])

/-- A read of a register whose value R32 leaves specified while BUSY = 1 gives that value at any time. -/
theorem hostAccess_regRead_of_not_free {off : Nat} {t : Target}
    (ht : busTarget (BitVec.ofNat 21 off).toNat .word = some t) (hf : readsFreeWhenBusy t = false) (s : State) :
    hostAccess (regRead off) s =
      respond (.data (readTarget s .word (Config.freeWord s.freeDraws) t)) { s with freeDraws := s.freeDraws + 1 } :=
  hostAccess_read ht rfl (by rw [hf, Bool.and_false])

/-! ## CTRL -/

theorem hostAccess_regWrite_ctrl (s : State) (v : Word) :
    hostAccess (regWrite 0x004 v) s = respond .written (writeCtrl v s) :=
  hostAccess_regWrite_of_not_drops busTarget_ctrl rfl s v

theorem response_regRead_ctrl (s : State) : (hostAccess (regRead 0x004) s).response = .data 0 := by
  rw [hostAccess_regRead_of_not_free busTarget_ctrl rfl, respond_response, readTarget]

/-- While the engine runs, START is recorded in HACC and ABORT in ABORTREQ (R34). -/
theorem writeCtrl_of_busy {s : State} (hb : s.busy = true) (v : Word) :
    writeCtrl v s = { s with hacc := s.hacc || v.getLsbD 0, abortReq := s.abortReq || v.getLsbD 1 } :=
  if_pos hb

/-- START while idle starts the engine, whatever the ABORT bit is (R34, R290). -/
theorem writeCtrl_of_idle_of_start {s : State} {v : Word} (hb : s.busy = false) (hv : v.getLsbD 0 = true) :
    writeCtrl v s = start s := by
  simp only [writeCtrl, hb, hv, Bool.false_eq_true, if_false, if_true]

/-- Without START, an idle engine ignores the write, ABORT included (R34). -/
theorem writeCtrl_of_idle_of_not_start {s : State} {v : Word} (hb : s.busy = false) (hv : v.getLsbD 0 = false) :
    writeCtrl v s = s := by
  simp only [writeCtrl, hb, hv, Bool.false_eq_true, if_false]

/-- Settles O53: a CTRL write is never dropped, and its three cases are those of BUSY and bit 0. -/
theorem ctrlStartsAndAborts : Obligations.CtrlStartsAndAborts := by
  intro s v
  rw [hostAccess_regWrite_ctrl]
  refine ⟨response_regRead_ctrl s, fun hb => ?busy, fun hb hv => ?start, fun hb hv => ?ignored⟩
  case busy => rw [writeCtrl_of_busy hb, respond]
  case start => rw [writeCtrl_of_idle_of_start hb hv, start, respond]
  case ignored => rw [writeCtrl_of_idle_of_not_start hb hv, respond]

/-! ## STATUS -/

theorem hostAccess_regWrite_status (s : State) (v : Word) :
    hostAccess (regWrite 0x008 v) s = respond .written (writeStatus v s) :=
  hostAccess_regWrite_of_not_drops busTarget_status rfl s v

/-- The write-one-to-clear of a bit `b` by the written bit `c`, as a choice. -/
theorem and_not_eq_ite (b c : Bool) : (b && !c) = if c then false else b := by
  cases c
  · exact Bool.and_true b
  · exact Bool.and_false b

/-- Settles O54: a STATUS write is never dropped, and each of its three bits clears its own fields. -/
theorem statusWritesClearBitByBit : Obligations.StatusWritesClearBitByBit := by
  intro s v
  rw [hostAccess_regWrite_status, writeStatus, respond]
  simp only [and_not_eq_ite]

end Sys2Proof.Proofs
end

section
/-! Bus errors and the LMEM window (20_memory.md R71, R73): an access reaches no target exactly in R73's three cases, and
a window access of width n moves byte k of its n bytes on lane k. -/

namespace Sys2Proof.Proofs

open Sys2Proof.Machine Sys2Proof.Statements Sys2Proof.Laws

/-! ## Which accesses reach no target -/

/-- The reserved offsets of the register map are those between LMEMSZ and GPR0, and those above GPR15 (R29). -/
theorem registerAt_eq_none_iff {off : Nat} (h4 : off % 4 = 0) :
    registerAt off = none ↔ (0x024 ≤ off ∧ off < 0x040) ∨ 0x080 ≤ off := by
  unfold registerAt
  split_ifs <;> simp only [true_iff, false_iff] <;> omega

/-- Below the window, every access but an aligned 32-bit one to a register is a bus error. -/
theorem busTarget_register_eq_none_iff {off : Nat} {w : Width} (h : off < 0x100000) :
    busTarget off w = none ↔ w ≠ .word ∨ off % 4 ≠ 0 ∨ (0x024 ≤ off ∧ off < 0x040) ∨ 0x080 ≤ off := by
  rw [busTarget, windowBase, if_pos h]
  by_cases ha : w = .word ∧ off % 4 = 0
  · rw [if_pos ha, registerAt_eq_none_iff ha.2]
    simp only [ha, ne_eq, not_true, false_or]
  · rw [if_neg ha]
    tauto

/-- In the window, an access beyond LMEM or misaligned for its width is a bus error. -/
theorem busTarget_window_eq_none_iff {off : Nat} {w : Width} (h : 0x100000 ≤ off) :
    busTarget off w = none ↔ 0x100000 + Config.lmemSize ≤ off ∨ off % widthBytes w ≠ 0 := by
  rw [busTarget, windowBase, if_neg (by omega)]
  by_cases ha : off - 0x100000 < Config.lmemSize ∧ off % widthBytes w = 0
  · rw [if_pos ha]
    simp only [reduceCtorEq, false_iff]
    omega
  · rw [if_neg ha]
    simp only [true_iff]
    omega

/-- R73's three conditions are exactly those under which an access reaches nothing. -/
theorem busErrorAccess_iff (acc : Access) :
    BusErrorAccess acc ↔ busTarget acc.offset.toNat acc.width = none := by
  unfold BusErrorAccess ReservedOffset
  rcases Nat.lt_or_ge acc.offset.toNat 0x100000 with h | h
  · rw [busTarget_register_eq_none_iff h]
    grind
  · rw [busTarget_window_eq_none_iff h]
    omega

/-! ## The answer of an access that reaches a target -/

/-- A write is answered normally, dropped or not (R73). -/
theorem response_of_write {acc : Access} {t : Target} {v : Word}
    (ht : busTarget acc.offset.toNat acc.width = some t) (ho : acc.op = .write v) (s : State) :
    (hostAccess acc s).response = .written := by
  cases hd : s.busy && dropsWhenBusy t with
  | true => rw [hostAccess_write_dropped ht ho hd, respond_response]
  | false => rw [hostAccess_write ht ho hd, respond_response]

/-- A read is answered with data, free or not (R73). -/
theorem response_of_read {acc : Access} {t : Target}
    (ht : busTarget acc.offset.toNat acc.width = some t) (ho : acc.op = .read) (s : State) :
    ∃ v, (hostAccess acc s).response = .data v := by
  cases hf : s.busy && readsFreeWhenBusy t with
  | true => exact ⟨_, by rw [hostAccess_read_free ht ho hf, respond_response]⟩
  | false => exact ⟨_, by rw [hostAccess_read ht ho hf, respond_response]⟩

/-- Settles O51: R73's conditions are those of an access with no target, and a target always answers. -/
theorem busErrorsExactly : Obligations.BusErrorsExactly := by
  intro s acc
  rw [busErrorAccess_iff]
  refine ⟨fun hnone => hostAccess_busError hnone, fun hsome => ?_⟩
  obtain ⟨t, ht⟩ := Option.ne_none_iff_exists'.mp hsome
  exact ⟨fun v ho => response_of_write ht ho s, fun ho => response_of_read ht ho s⟩

/-! ## The bytes of a word -/

@[simp] theorem length_bytesLE (v : Word) : (bytesLE v).length = 4 := rfl

/-- Byte k of a word is bits [8k+7:8k] (R71). -/
theorem getElem_bytesLE (v : Word) {k : Nat} (h : k < (bytesLE v).length) :
    (bytesLE v)[k] = v.extractLsb' (8 * k) 8 := by
  match k, h with
  | 0, _ => rfl
  | 1, _ => rfl
  | 2, _ => rfl
  | 3, _ => rfl

/-- A word is its four bytes, lowest first. -/
theorem wordLE_extractLsb' (v : Word) :
    wordLE (v.extractLsb' 0 8) (v.extractLsb' 8 8) (v.extractLsb' 16 8) (v.extractLsb' 24 8) = v := by
  have h3 : v.extractLsb' 24 8 ++ v.extractLsb' 16 8 = v.extractLsb' 16 16 :=
    BitVec.extractLsb'_append_extractLsb'_eq_extractLsb' rfl
  have h2 : v.extractLsb' 16 16 ++ v.extractLsb' 8 8 = v.extractLsb' 8 24 :=
    BitVec.extractLsb'_append_extractLsb'_eq_extractLsb' rfl
  have h1 : v.extractLsb' 8 24 ++ v.extractLsb' 0 8 = v.extractLsb' 0 32 :=
    BitVec.extractLsb'_append_extractLsb'_eq_extractLsb' rfl
  rw [wordLE, h3, h2, h1, BitVec.extractLsb'_eq_self]

/-- The word at a is v when its four bytes are those of v, which is what a fetch at a then returns (R61). -/
theorem wordAt_eq_of_bytes {s : State} {a : Nat} {v : Word}
    (h : ∀ k, k < 4 → byteAt s (a + k) = v.extractLsb' (8 * k) 8) : wordAt s a = v := by
  have h0 : byteAt s a = v.extractLsb' 0 8 := h 0 (by decide)
  have h1 : byteAt s (a + 1) = v.extractLsb' 8 8 := h 1 (by decide)
  have h2 : byteAt s (a + 2) = v.extractLsb' 16 8 := h 2 (by decide)
  have h3 : byteAt s (a + 3) = v.extractLsb' 24 8 := h 3 (by decide)
  rw [wordAt, h0, h1, h2, h3, wordLE_extractLsb']

/-! ## The lanes of a window access -/

/-- An access moves at most the four bytes of the bus word (R70). -/
theorem widthBytes_le (w : Width) : widthBytes w ≤ 4 := by cases w <;> decide

/-- A window write of width w stores as many bytes as the width has. -/
theorem length_take_bytesLE (w : Width) (v : Word) : ((bytesLE v).take (widthBytes w)).length = widthBytes w := by
  rw [List.length_take, length_bytesLE, Nat.min_eq_left (widthBytes_le w)]

/-- Byte k of the bytes a window write stores is lane k of the bus word (R71). -/
theorem byteAt_writeBytes_lane {w : Width} {k : Nat} (hk : k < widthBytes w) (s : State) (a : Nat) (v : Word) :
    byteAt (writeBytes s a ((bytesLE v).take (widthBytes w))) (a + k) = v.extractLsb' (8 * k) 8 := by
  rw [byteAt_writeBytes_inside (by rwa [length_take_bytesLE]), List.getElem_take, getElem_bytesLE]

/-- Lane 0 of a bus word that ends in a byte is that byte. -/
theorem extractLsb'_append_byte_zero {n : Nat} (hi : BitVec n) (lo : Byte) : (hi ++ lo).extractLsb' (8 * 0) 8 = lo :=
  BitVec.extractLsb'_append_eq_right

/-- Lane k + 1 of a bus word that ends in a byte is lane k of what stands above the byte. -/
theorem extractLsb'_append_byte_succ {n : Nat} (hi : BitVec n) (lo : Byte) (k : Nat) :
    (hi ++ lo).extractLsb' (8 * (k + 1)) 8 = hi.extractLsb' (8 * k) 8 := by
  rw [BitVec.extractLsb'_append_eq_of_le (by omega), Nat.mul_succ, Nat.add_sub_cancel]

/-- Lane k of a window read is LMEM[a+k] (R71). -/
theorem extractLsb'_windowLanes {w : Width} {k : Nat} (hk : k < widthBytes w) (s : State) (a : Nat) (other : Word) :
    (windowLanes s a w other).extractLsb' (8 * k) 8 = byteAt s (a + k) := by
  match w, k, hk with
  | .byte, 0, _ => exact extractLsb'_append_byte_zero _ _
  | .half, 0, _ => exact extractLsb'_append_byte_zero _ _
  | .half, 1, _ => exact (extractLsb'_append_byte_succ _ _ 0).trans (extractLsb'_append_byte_zero _ _)
  | .word, 0, _ => exact extractLsb'_append_byte_zero _ _
  | .word, 1, _ => exact (extractLsb'_append_byte_succ _ _ 0).trans (extractLsb'_append_byte_zero _ _)
  | .word, 2, _ =>
    exact (extractLsb'_append_byte_succ _ _ 1).trans
      ((extractLsb'_append_byte_succ _ _ 0).trans (extractLsb'_append_byte_zero _ _))
  | .word, 3, _ =>
    exact (extractLsb'_append_byte_succ _ _ 2).trans ((extractLsb'_append_byte_succ _ _ 1).trans
      ((extractLsb'_append_byte_succ _ _ 0).trans BitVec.extractLsb'_eq_self))

/-! ## The window while the engine is idle -/

/-- An idle engine's window write stores the lanes below the width, and nothing else happens. -/
theorem hostAccess_windowWrite_of_idle {s : State} {a : Nat} {w : Width} (hb : s.busy = false)
    (ha : a < Config.lmemSize) (hw : a % widthBytes w = 0) (v : Word) :
    hostAccess (windowWrite a w v) s = respond .written (writeBytes s a ((bytesLE v).take (widthBytes w))) :=
  hostAccess_write (acc := windowWrite a w v) (busTarget_window ha hw) rfl (by rw [hb, Bool.false_and])

/-- An idle engine's window read is answered with the lanes at the address. -/
theorem response_windowRead_of_idle {s : State} {a : Nat} {w : Width} (hb : s.busy = false)
    (ha : a < Config.lmemSize) (hw : a % widthBytes w = 0) :
    (hostAccess (windowRead a w) s).response = .data (windowLanes s a w (Config.freeWord s.freeDraws)) := by
  rw [hostAccess_read (busTarget_window ha hw) rfl (by rw [hb, Bool.false_and]), respond_response]
  rfl

/-- Settles O57: a window write is a store of the lanes below the width, so each clause is a law of that store. -/
theorem windowIsLittleEndian : Obligations.WindowIsLittleEndian := by
  intro s a w v hb ha hw
  have hlane : ∀ k, k < widthBytes w →
      byteAt (hostAccess (windowWrite a w v) s) (a + k) = v.extractLsb' (8 * k) 8 := fun k hk => by
    rw [hostAccess_windowWrite_of_idle hb ha hw, byteAt_respond, byteAt_writeBytes_lane hk]
  refine ⟨hlane, fun x hx => ?others, fun r => ?registers, ⟨_, hostAccess_windowWrite_of_idle hb ha hw v⟩, ?fetched,
    _, response_windowRead_of_idle hb ha hw, fun k hk => extractLsb'_windowLanes hk s a _⟩
  case others =>
    rw [hostAccess_windowWrite_of_idle hb ha hw, byteAt_respond,
      byteAt_writeBytes_outside (by rwa [length_take_bytesLE])]
  case registers => rw [hostAccess_windowWrite_of_idle hb ha hw, readReg_respond, readReg_writeBytes]
  case fetched =>
    rintro rfl
    exact wordAt_eq_of_bytes hlane

end Sys2Proof.Proofs
end

section
/-! How a command ends, in the words of the statements: what a raise and a commit of R276 and R280 keep, and the range
check of R8 as a proposition. A command's meaning is then followed branch by branch to one of these ends. -/

namespace Sys2Proof.Proofs

open Sys2Proof.Machine Sys2Proof.Statements Sys2Proof.Laws

/-! ## The checks of R8 and R151 -/

/-- The model's `RangeOK` is that of R8. -/
theorem rangeOK_iff {addr : Word} {n : Nat} : rangeOK addr n = true ↔ InLmem addr n := by
  simp only [rangeOK, Bool.or_eq_true, Bool.and_eq_true, beq_iff_eq, decide_eq_true_eq]

theorem hashOK_iff {code : Byte} : hashOK code = true ↔ code.toNat ≤ 2 := decide_eq_true_iff

/-- A byte in a 32-bit information word is its number. -/
theorem zextByte_eq_ofNat (b : Byte) : zextByte b = BitVec.ofNat 32 b.toNat := (BitVec.ofNat_toNat 32 b).symm

/-! ## A check passed or failed -/

section
variable {α : Type} {x y : α} {addr : Word} {n : Nat} {code : Byte}

theorem range_passes (h : InLmem addr n) : (if !rangeOK addr n then x else y) = y := by
  rw [rangeOK_iff.mpr h]; rfl

theorem range_fails (h : ¬ InLmem addr n) : (if !rangeOK addr n then x else y) = x := by
  rw [Bool.eq_false_iff.mpr (mt rangeOK_iff.mp h)]; rfl

theorem hash_passes (h : code.toNat ≤ 2) : (if !hashOK code then x else y) = y := by
  rw [hashOK_iff.mpr h]; rfl

theorem hash_fails (h : 2 < code.toNat) : (if !hashOK code then x else y) = x := by
  rw [Bool.eq_false_iff.mpr (mt hashOK_iff.mp (Nat.not_le.mpr h))]; rfl

end

/-! ## Raising -/

/-- The error entry changes nothing beyond R276's list. -/
theorem raises_of_eq {o : Result} {s : State} {e : ErrCode} {info : Word} (h : o = raise e info s) :
    Raises o s e info :=
  ⟨takeError e info s, h, rfl, rfl, rfl, rfl, rfl, rfl, rfl, rfl, rfl, fun _ => rfl, fun _ => rfl,
    ⟨rfl, rfl, rfl, rfl⟩, ⟨rfl, rfl, rfl, rfl⟩⟩

/-! ## Completing -/

/-- The registers of a list of writes take their values, in the list's order. -/
def setRegs (s : State) : List (Reg × Word) → State
  | [] => s
  | rv :: rvs => setRegs (setReg s rv.1 rv.2) rvs

theorem readReg_setRegs_of_notMem {r : Reg} {rvs : List (Reg × Word)} (h : r ∉ rvs.map Prod.fst) (s : State) :
    readReg (setRegs s rvs) r = readReg s r := by
  induction rvs generalizing s with
  | nil => rfl
  | cons rv rvs ih =>
    obtain ⟨hne, hnot⟩ := not_or.mp (mt List.mem_cons.mpr h)
    rw [setRegs, ih hnot, readReg_setReg_other hne]

theorem readReg_setRegs_of_mem {rv : Reg × Word} {rvs : List (Reg × Word)} (hnd : (rvs.map Prod.fst).Nodup)
    (h : rv ∈ rvs) (s : State) : readReg (setRegs s rvs) rv.1 = rv.2 := by
  induction rvs generalizing s with
  | nil => cases h
  | cons head rvs ih =>
    obtain ⟨hhead, hrest⟩ := List.nodup_cons.mp hnd
    rw [setRegs]
    rcases List.mem_cons.mp h with rfl | hmem
    · rw [readReg_setRegs_of_notMem hhead, readReg_setReg_same]
    · exact ih hrest hmem _

/-- Register writes reach the general registers only. -/
theorem setRegs_eq (s : State) (rvs : List (Reg × Word)) :
    setRegs s rvs = { s with regs := (setRegs s rvs).regs } := by
  induction rvs generalizing s with
  | nil => rfl
  | cons rv rvs ih => rw [setRegs, ih]; rfl

theorem byteAt_setRegs (s : State) (rvs : List (Reg × Word)) (x : Nat) : byteAt (setRegs s rvs) x = byteAt s x := by
  rw [setRegs_eq]; rfl

/-- What a completing command leaves: a store at `a`, the register writes, and the move to the next command. -/
def commit (s : State) (writes : List (Reg × Word)) (a : Nat) (bs : List Byte) (next : Word) : State :=
  finish next (setRegs (writeBytes s a bs) writes)

theorem stored_commit (s : State) (writes : List (Reg × Word)) (a : Nat) (bs : List Byte) (next : Word) :
    Stored s (commit s writes a bs next) a bs := by
  constructor
  · intro k hk
    rw [commit, byteAt_finish, byteAt_setRegs, byteAt_writeBytes_inside hk, List.getD_eq_getElem _ _ hk]
  · intro x hx
    rw [commit, byteAt_finish, byteAt_setRegs, byteAt_writeBytes_outside hx]

theorem sameControl_commit (s : State) (writes : List (Reg × Word)) (a : Nat) (bs : List Byte) (next : Word) :
    SameControl s (commit s writes a bs next) := by
  rw [commit, setRegs_eq]
  exact ⟨rfl, rfl, rfl, rfl, rfl, rfl, rfl, ⟨rfl, rfl, rfl, rfl⟩, ⟨rfl, rfl, rfl, rfl⟩⟩

/-- A command that answers a commit completes, if it writes no register twice. -/
theorem completes_of_eq {i : Instr} {s : State} {writes : List (Reg × Word)} {a : Nat} {bs : List Byte} {next : Word}
    (hnd : (writes.map Prod.fst).Nodup) (h : exec i s = .next (commit s writes a bs next)) :
    Completes i s writes a bs next := by
  refine ⟨_, h, fun rv hrv => ?written, fun r hr => ?kept, stored_commit s writes a bs next, rfl, ?counted,
    sameControl_commit s writes a bs next⟩
  case written => rw [commit, readReg_finish, readReg_setRegs_of_mem hnd hrv]
  case kept => rw [commit, readReg_finish, readReg_setRegs_of_notMem hr, readReg_writeBytes]
  case counted => rw [commit, finish_cmdCnt, setRegs_eq]; rfl

/-- A command that ends in one store, such as HPACK, completes with no register written. -/
theorem completes_of_store {i : Instr} {s : State} {a : Nat} {bs : List Byte}
    (h : exec i s = complete (writeBytes s a bs)) : Completes i s [] a bs (s.pc + 4) :=
  completes_of_eq List.nodup_nil h

/-- A command that ends in a store and one register write, such as B64E, completes. -/
theorem completes_of_store_setReg {i : Instr} {s : State} {a : Nat} {bs : List Byte} {c : Reg} {v : Word}
    (h : exec i s = complete (setReg (writeBytes s a bs) c v)) : Completes i s [(c, v)] a bs (s.pc + 4) :=
  completes_of_eq (List.nodup_singleton c) h

/-- A command that ends in two register writes, such as HUNPACK, completes if the registers differ. -/
theorem writes_of_setReg_setReg {i : Instr} {s : State} {d b : Reg} {v w : Word} (hne : d ≠ b)
    (h : exec i s = complete (setReg (setReg s d v) b w)) : Writes i s [(d, v), (b, w)] :=
  completes_of_eq (by simpa using hne) h

/-! ## The shared end of B64D, HENC and HDEC -/

theorem raises_of_storeResult {o : Result} {s : State} {dst : Word} {c : Reg} {out : List Byte}
    (h : o = storeResult dst c out s) (hr : ¬ InLmem dst out.length) : Raises o s .memRange dst :=
  raises_of_eq (h.trans (range_fails hr))

theorem completes_of_storeResult {i : Instr} {s : State} {dst : Word} {c : Reg} {out : List Byte}
    (h : exec i s = storeResult dst c out s) (hr : InLmem dst out.length) :
    Completes i s [(c, BitVec.ofNat 32 out.length)] dst.toNat out (s.pc + 4) :=
  completes_of_store_setReg (h.trans (range_passes hr))

end Sys2Proof.Proofs
end

section
/-! The words of the codec commands (30_encoding.md R91, R94, R95): the fields of a format R word read back, the bits
outside the used fields are 0, and so each word is its command. -/

namespace Sys2Proof.Proofs

open Sys2Proof.Machine Sys2Proof.Statements Sys2Proof.Laws

section
variable (op : BitVec 8) (d a b c e : Reg) (f : BitVec 4)

@[simp] theorem fieldD_formatR : fieldD (formatR op d a b c e f) = d := by
  ext i hi
  simp only [fieldD, formatR, BitVec.getElem_extractLsb', BitVec.getLsbD_append]
  grind

@[simp] theorem fieldA_formatR : fieldA (formatR op d a b c e f) = a := by
  ext i hi
  simp only [fieldA, formatR, BitVec.getElem_extractLsb', BitVec.getLsbD_append]
  grind

@[simp] theorem fieldB_formatR : fieldB (formatR op d a b c e f) = b := by
  ext i hi
  simp only [fieldB, formatR, BitVec.getElem_extractLsb', BitVec.getLsbD_append]
  grind

@[simp] theorem fieldC_formatR : fieldC (formatR op d a b c e f) = c := by
  ext i hi
  simp only [fieldC, formatR, BitVec.getElem_extractLsb', BitVec.getLsbD_append]
  grind

theorem getLsbD_zero_formatR : (formatR op d a b c e f).getLsbD 0 = f.getLsbD 0 := by
  rw [formatR, BitVec.getLsbD_append, if_pos (by decide)]

@[simp] theorem fieldNopad_formatR (nopad : Bool) : fieldNopad (formatR op d a b c e (flagF nopad)) = nopad := by
  rw [fieldNopad, getLsbD_zero_formatR]
  cases nopad <;> rfl

/-- A mask cuts a format R word field by field. -/
theorem formatR_and_formatR (op' : BitVec 8) (d' a' b' c' e' : Reg) (f' : BitVec 4) :
    formatR op d a b c e f &&& formatR op' d' a' b' c' e' f' =
      formatR (op &&& op') (d &&& d') (a &&& a') (b &&& b') (c &&& c') (e &&& e') (f &&& f') := by
  ext i hi
  simp only [formatR, BitVec.getElem_and, BitVec.getElem_append]
  grind

/-- The unused fields e and f of HPACK, B64D and HDEC are 0. -/
theorem formatR_and_unusedEF : formatR op d a b c 0 0 &&& 0x000000FF = 0 := by
  rw [show (0x000000FF : Word) = formatR 0 0 0 0 0 0xF 0xF from rfl, formatR_and_formatR]
  simp only [BitVec.and_zero, BitVec.zero_and, BitVec.ofNat_eq_ofNat]
  rfl

/-- The unused field e and bits f[3:1] of B64E and HENC are 0. -/
theorem formatR_and_unusedEFlags (nopad : Bool) : formatR op d a b c 0 (flagF nopad) &&& 0x000000FE = 0 := by
  have hflag : flagF nopad &&& 0xE = 0 := by cases nopad <;> rfl
  rw [show (0x000000FE : Word) = formatR 0 0 0 0 0 0xF 0xE from rfl, formatR_and_formatR, hflag]
  simp only [BitVec.and_zero, BitVec.zero_and, BitVec.ofNat_eq_ofNat]
  rfl

/-- The unused fields c, e and f of HUNPACK are 0. -/
theorem formatR_and_unusedCEF : formatR op d a b 0 0 0 &&& 0x00000FFF = 0 := by
  rw [show (0x00000FFF : Word) = formatR 0 0 0 0 0xF 0xF 0xF from rfl, formatR_and_formatR]
  simp only [BitVec.and_zero, BitVec.zero_and, BitVec.ofNat_eq_ofNat]
  rfl

end

theorem strict_eq_ok {w unused : Word} (h : w &&& unused = 0) (i : Instr) : strict w unused i = .ok i := if_pos h

/-! ## The zero fields of a word, side by side -/

theorem append_zero8 (x : BitVec 24) : x ++ 0#4 ++ 0#4 = x ++ 0#8 := by
  rw [BitVec.append_assoc]; rfl

theorem append_zero12 (x : BitVec 20) : x ++ 0#4 ++ 0#4 ++ 0#4 = x ++ 0#12 := by
  rw [BitVec.append_assoc, BitVec.append_assoc]; rfl

theorem append_zero4_flagF (x : BitVec 24) (nopad : Bool) :
    x ++ 0#4 ++ flagF nopad = x ++ 0#7 ++ BitVec.ofBool nopad := by
  rw [flagF, BitVec.append_assoc, BitVec.append_assoc]
  cases nopad <;> rfl

/-! ## The words -/

/-- A word is a command's if the command encodes to it, the decoder reaches the command's row with the command's own
operands, and the bits that row does not use are 0. -/
theorem encodedAs_of_row {i : Instr} {w unused : Word} (hd : decode (encode i) = strict (encode i) unused i)
    (hu : encode i &&& unused = 0) (he : encode i = w) : EncodedAs i w :=
  ⟨he ▸ hd.trans (strict_eq_ok hu i), he⟩

section
variable (d a b c : Reg) (nopad : Bool)

theorem encodedAs_hpack : EncodedAs (.hpack d a b c) (0x50#8 ++ d ++ a ++ b ++ c ++ 0#8) := by
  refine encodedAs_of_row ?_ (formatR_and_unusedEF _ _ _ _ _) (append_zero8 _)
  simp [encode, decode, opcodeField_formatR, Instr.opcode]

theorem encodedAs_hunpack (hne : d ≠ b) : EncodedAs (.hunpack d a b) (0x51#8 ++ d ++ a ++ b ++ 0#12) := by
  refine encodedAs_of_row ?_ (formatR_and_unusedCEF _ _ _ _) (append_zero12 _)
  simp [encode, decode, opcodeField_formatR, Instr.opcode, hne]

theorem encodedAs_b64e :
    EncodedAs (.b64e d a b c nopad) (0x52#8 ++ d ++ a ++ b ++ c ++ 0#7 ++ BitVec.ofBool nopad) := by
  refine encodedAs_of_row ?_ (formatR_and_unusedEFlags _ _ _ _ _ nopad) (append_zero4_flagF _ nopad)
  simp [encode, decode, opcodeField_formatR, Instr.opcode]

theorem encodedAs_b64d : EncodedAs (.b64d d a b c) (0x53#8 ++ d ++ a ++ b ++ c ++ 0#8) := by
  refine encodedAs_of_row ?_ (formatR_and_unusedEF _ _ _ _ _) (append_zero8 _)
  simp [encode, decode, opcodeField_formatR, Instr.opcode]

theorem encodedAs_henc :
    EncodedAs (.henc d a b c nopad) (0x54#8 ++ d ++ a ++ b ++ c ++ 0#7 ++ BitVec.ofBool nopad) := by
  refine encodedAs_of_row ?_ (formatR_and_unusedEFlags _ _ _ _ _ nopad) (append_zero4_flagF _ nopad)
  simp [encode, decode, opcodeField_formatR, Instr.opcode]

theorem encodedAs_hdec : EncodedAs (.hdec d a b c) (0x55#8 ++ d ++ a ++ b ++ c ++ 0#8) := by
  refine encodedAs_of_row ?_ (formatR_and_unusedEF _ _ _ _ _) (append_zero8 _)
  simp [encode, decode, opcodeField_formatR, Instr.opcode]

end

end Sys2Proof.Proofs
end

section
/-! The share header and the numbers of the human text as byte sequences (41_codec.md R150 to R154, R170): IDSET, the
first byte outside it, the length of a padded identifier, the header byte by byte, and the decimal threshold. -/

namespace Sys2Proof.Proofs

open Sys2Proof.Machine Sys2Proof.Statements Sys2Proof.Laws

/-! ## IDSET (R153) -/

theorem inIdset_iff (b : Byte) : inIdset b = true ↔ InIdset b := by
  simp only [inIdset, InIdset, Bool.or_eq_true, Bool.and_eq_true, decide_eq_true_eq, beq_iff_eq, or_assoc]

theorem length_filter_inIdset : ((List.range 256).filter (fun n => inIdset (BitVec.ofNat 8 n))).length = 65 := by
  decide

/-! ## The first byte outside IDSET (R152, R176) -/

theorem firstBadIdent_eq_some {id : List Byte} {k : Nat} (hk : k < id.length) (hbad : inIdset (id.getD k 0) = false)
    (hgood : ∀ k', k' < k → inIdset (id.getD k' 0) = true) : firstBadIdent id = some k := by
  refine List.findIdx?_eq_some_iff_getElem.mpr ⟨hk, ?_, fun j hj => ?_⟩
  · rw [← List.getD_eq_getElem id 0 hk, hbad]; rfl
  · rw [← List.getD_eq_getElem id 0 (by omega), hgood j hj]; decide

theorem firstBadIdent_eq_none {id : List Byte} (hgood : ∀ k, k < id.length → inIdset (id.getD k 0) = true) :
    firstBadIdent id = none := by
  refine List.findIdx?_eq_none_iff.mpr fun x hx => ?_
  obtain ⟨k, hk, rfl⟩ := List.mem_iff_getElem.mp hx
  rw [← List.getD_eq_getElem id 0 hk, hgood k hk]; rfl

theorem getD_take_of_lt {s : List Byte} {k q : Nat} (h : q < k) : (s.take k).getD q 0 = s.getD q 0 := by
  rw [List.getD_eq_getElem?_getD, List.getElem?_take_of_lt h, List.getD_eq_getElem?_getD]

/-! ## The length of a padded identifier (R154) -/

theorem identLength_le (h : List Byte) : identLength h ≤ 16 := Nat.sub_le _ _

/-- Counted from the end of the 16 identifier bytes, the padding ends at the first byte that is not 0. -/
theorem identLength_eq (h : List Byte) :
    identLength h = 16 - (h.take 16).reverse.findIdx (fun b => !(b == 0x00)) := by
  have hle := List.findIdx_le_length (p := fun b : Byte => !(b == 0x00)) (xs := (h.take 16).reverse)
  rw [identLength, List.takeWhile_eq_take_findIdx_not, List.length_take, Nat.min_eq_left hle]

/-- Byte j of the 16 identifier bytes, counted from their end. -/
theorem getElem_reverse_take {h : List Byte} {j : Nat} (hlen : 16 ≤ h.length)
    (hj : 15 - j < (h.take 16).reverse.length) (h16 : j < 16) : (h.take 16).reverse[15 - j] = h.getD j 0 := by
  rw [List.getElem_reverse, List.getElem_take, List.getD_eq_getElem h 0 (by omega)]
  congr 1
  rw [List.length_take]
  omega

/-- The bytes from the identifier's end on are the padding. -/
theorem getD_eq_zero_of_identLength_le {h : List Byte} (hlen : 16 ≤ h.length) {j : Nat} (hj : identLength h ≤ j)
    (h16 : j < 16) : h.getD j 0 = 0 := by
  rw [identLength_eq] at hj
  have hpad := List.not_of_lt_findIdx (i := 15 - j) (xs := (h.take 16).reverse) (p := fun b => !(b == 0x00)) (by omega)
  rw [getElem_reverse_take hlen _ h16] at hpad
  simpa using hpad

/-- The last byte of a non-empty identifier is not padding. -/
theorem getD_identLength_pred_ne_zero {h : List Byte} (hlen : 16 ≤ h.length) (hpos : identLength h ≠ 0) :
    h.getD (identLength h - 1) 0 ≠ 0 := by
  rw [identLength_eq] at hpos ⊢
  generalize hf : (h.take 16).reverse.findIdx (fun b => !(b == 0x00)) = f at hpos ⊢
  have hlt : f < (h.take 16).reverse.length := by rw [List.length_reverse, List.length_take]; omega
  have hlast := ((List.findIdx_eq hlt).mp hf).1
  rw [← getElem_reverse_take hlen (by omega) (by omega)]
  simpa only [show 15 - (16 - f - 1) = f by omega, Bool.not_eq_true', beq_eq_false_iff_ne] using hlast

/-! ## The header byte by byte (R150, R152) -/

section
variable {id : List Byte} {k : Nat} (hash threshold lenHigh lenLow : Byte)

theorem getD_packHeader_ident (hk : k < id.length) :
    (packHeader id hash threshold lenHigh lenLow).getD k 0 = id.getD k 0 := by
  rw [packHeader, List.append_assoc, List.getD_append _ _ _ _ hk]

theorem getD_packHeader_padding (hk : id.length ≤ k) (h16 : k < 16) :
    (packHeader id hash threshold lenHigh lenLow).getD k 0 = 0x00 := by
  rw [packHeader, List.append_assoc, List.getD_append_right _ _ _ _ hk,
    List.getD_append _ _ _ _ (by rw [List.length_replicate]; omega), List.getD_replicate _ (by omega)]

theorem getD_packHeader_tail (hid : id.length ≤ 16) :
    (packHeader id hash threshold lenHigh lenLow).getD (16 + k) 0 = [hash, threshold, lenHigh, lenLow].getD k 0 := by
  have hlen : (id ++ List.replicate (16 - id.length) (0x00 : Byte)).length = 16 := by
    rw [List.length_append, List.length_replicate]; omega
  rw [packHeader, List.getD_append_right _ _ _ _ (by omega), hlen, Nat.add_sub_cancel_left]

end

/-! ## The decimal threshold (R170) -/

theorem toNat_digitChar {d : Nat} (h : d < 10) : (digitChar d).toNat = 0x30 + d := by
  rw [digitChar, BitVec.toNat_ofNat]; omega

theorem digitChar_ne_zero {d : Nat} (h : d < 10) (h0 : d ≠ 0) : digitChar d ≠ 0x30 := by
  intro heq
  have hval : (0x30 : Byte).toNat = 0x30 + d := heq ▸ toNat_digitChar h
  exact h0 (Nat.add_left_cancel hval.symm)

/-- One, two or three digits, the first of several not 0. -/
theorem decimal_cases (t : Byte) :
    (t.toNat < 10 ∧ decimal t = [digitChar t.toNat]) ∨
    (10 ≤ t.toNat ∧ t.toNat < 100 ∧ decimal t = [digitChar (t.toNat / 10), digitChar (t.toNat % 10)]) ∨
    (100 ≤ t.toNat ∧
      decimal t = [digitChar (t.toNat / 100), digitChar (t.toNat / 10 % 10), digitChar (t.toNat % 10)]) := by
  unfold decimal
  by_cases h1 : t.toNat < 10
  · exact .inl ⟨h1, if_pos h1⟩
  · by_cases h2 : t.toNat < 100
    · exact .inr (.inl ⟨by omega, h2, (if_neg h1).trans (if_pos h2)⟩)
    · exact .inr (.inr ⟨by omega, (if_neg h1).trans (if_neg h2)⟩)

/-- Every byte of a decimal rendering is a digit's. -/
theorem decimal_digits (t : Byte) : ∀ ch ∈ decimal t, ∃ d, d < 10 ∧ ch = digitChar d := by
  have hlt := t.isLt
  rcases decimal_cases t with ⟨h, he⟩ | ⟨_, h, he⟩ | ⟨h, he⟩
  all_goals
    rw [he]
    simp only [List.forall_mem_cons, List.not_mem_nil, false_imp_iff, implies_true, and_true]
  · exact ⟨_, h, rfl⟩
  · exact ⟨⟨_, by omega, rfl⟩, ⟨_, by omega, rfl⟩⟩
  · exact ⟨⟨_, by omega, rfl⟩, ⟨_, by omega, rfl⟩, ⟨_, by omega, rfl⟩⟩

theorem decimalValue_decimal (t : Byte) : decimalValue (decimal t) = t.toNat := by
  have hlt := t.isLt
  rcases decimal_cases t with ⟨h, he⟩ | ⟨_, h, he⟩ | ⟨h, he⟩
  all_goals
    rw [he]
    simp only [decimalValue, List.foldl_cons, List.foldl_nil]
  · rw [toNat_digitChar h]; omega
  · rw [toNat_digitChar (by omega), toNat_digitChar (by omega)]; omega
  · rw [toNat_digitChar (by omega), toNat_digitChar (by omega), toNat_digitChar (by omega)]; omega

theorem length_decimal (t : Byte) : 1 ≤ (decimal t).length ∧ (decimal t).length ≤ 3 := by
  rcases decimal_cases t with ⟨_, he⟩ | ⟨_, _, he⟩ | ⟨_, he⟩ <;> simp [he]

theorem decimal_no_leading_zero (t : Byte) (h : 1 < (decimal t).length) : (decimal t).getD 0 0 ≠ 0x30 := by
  have hlt := t.isLt
  rcases decimal_cases t with ⟨_, he⟩ | ⟨_, _, he⟩ | ⟨_, he⟩ <;> rw [he] at h ⊢
  · exact absurd h (Nat.lt_irrefl 1)
  · exact digitChar_ne_zero (by omega) (by omega)
  · exact digitChar_ne_zero (by omega) (by omega)

end Sys2Proof.Proofs
end

section
/-! Base64 group by group (41_codec.md R161): whole groups of three bytes drop off the encoding as four characters each, so
what stands after g groups is the encoding of what stands after them. -/

namespace Sys2Proof.Proofs

open Sys2Proof.Machine Sys2Proof.Statements Sys2Proof.Laws

theorem drop_four_b64enc (x y z : Byte) (rest : List Byte) (pad : Bool) :
    (b64enc pad (x :: y :: z :: rest)).drop 4 = b64enc pad rest := rfl

theorem take_four_b64enc (x y z : Byte) (rest : List Byte) (pad : Bool) :
    (b64enc pad (x :: y :: z :: rest)).take 4 = b64Quad (x ++ y ++ z) := rfl

theorem drop_eq_getD_cons {s : List Byte} {i : Nat} (h : i < s.length) : s.drop i = s.getD i 0 :: s.drop (i + 1) := by
  rw [List.drop_eq_getElem_cons h, List.getD_eq_getElem s 0 h]

/-- The three bytes of a whole group, and what follows it. -/
theorem drop_group {s : List Byte} {g : Nat} (h : g < s.length / 3) :
    s.drop (3 * g) =
      s.getD (3 * g) 0 :: s.getD (3 * g + 1) 0 :: s.getD (3 * g + 2) 0 :: s.drop (3 * (g + 1)) := by
  rw [drop_eq_getD_cons (by omega), drop_eq_getD_cons (by omega), drop_eq_getD_cons (by omega)]; rfl

/-- After the characters of g whole groups stands the encoding of the bytes after those groups. -/
theorem drop_b64enc (s : List Byte) (pad : Bool) {g : Nat} (h : g ≤ s.length / 3) :
    (b64enc pad s).drop (4 * g) = b64enc pad (s.drop (3 * g)) := by
  induction g with
  | zero => rfl
  | succ g ih =>
    rw [Nat.mul_succ, ← List.drop_drop, ih (by omega), drop_group (by omega), drop_four_b64enc]

/-- Settles O40: a group is the head of the encoding of what stands from it on, and a tail is that encoding whole. -/
theorem base64EncodesByGroups : Obligations.Base64EncodesByGroups := by
  intro s pad n out
  have htail : out.drop (4 * (n / 3)) = b64enc pad (s.drop (3 * (n / 3))) := drop_b64enc s pad le_rfl
  refine ⟨fun g hg => ?group, fun h0 => ?none, fun h1 => ?one, fun h2 => ?two⟩
  case group =>
    rw [drop_b64enc s pad hg.le, drop_group hg, take_four_b64enc]; rfl
  case none =>
    rw [htail, List.drop_eq_nil_of_le (by omega)]; rfl
  case one =>
    rw [htail, show 3 * (n / 3) = n - 1 by omega, drop_eq_getD_cons (by omega), List.drop_eq_nil_of_le (by omega)]; rfl
  case two =>
    rw [htail, show 3 * (n / 3) = n - 2 by omega, drop_eq_getD_cons (by omega), show n - 2 + 1 = n - 1 by omega,
      drop_eq_getD_cons (by omega), List.drop_eq_nil_of_le (by omega)]
    rfl

end Sys2Proof.Proofs
end

section
/-! The codec commands (41_codec.md R152, R155, R165, R169, R176, R180): each clause of a statement follows the
meaning's checks in their order, each passed or failed, to the end that the clause names. -/

namespace Sys2Proof.Proofs

open Sys2Proof.Machine Sys2Proof.Statements Sys2Proof.Laws

/-! ## HPACK and HUNPACK -/

section
variable {s : State} {d a b c : Reg} (hl : (readReg s b).toNat ≤ 16) (hh : (fieldsHash (readReg s c)).toNat ≤ 2)
  (hi : InLmem (readReg s a) (readReg s b).toNat) (hd : InLmem (readReg s d) 20)
include hl hh hi hd

theorem exec_hpack_of_badIdent {k : Nat}
    (h : firstBadIdent (readBytes s (readReg s a).toNat (readReg s b).toNat) = some k) :
    exec (.hpack d a b c) s = raise .badIdent (natWord k) s := by
  refine ((((if_neg hl.not_gt).trans (hash_passes hh)).trans (range_passes hi)).trans (range_passes hd)).trans ?_
  rw [h]

theorem exec_hpack_of_identOK
    (h : firstBadIdent (readBytes s (readReg s a).toNat (readReg s b).toNat) = none) :
    exec (.hpack d a b c) s =
      complete (writeBytes s (readReg s d).toNat
        (packHeader (readBytes s (readReg s a).toNat (readReg s b).toNat) (fieldsHash (readReg s c))
          (fieldsThreshold (readReg s c)) (fieldsLenHigh (readReg s c)) (fieldsLenLow (readReg s c)))) := by
  refine ((((if_neg hl.not_gt).trans (hash_passes hh)).trans (range_passes hi)).trans (range_passes hd)).trans ?_
  rw [h]

end

/-- Settles O37: IDSET by its ranges; then HPACK's checks in R152's order, and the packed header byte by byte. -/
theorem hpackPacksTheHeader : Obligations.HpackPacksTheHeader := by
  refine ⟨inIdset_iff, length_filter_inIdset, fun s d a b c => ?_⟩
  intro dst ida idl fl id o hash
  have hlen : id.length = idl.toNat := length_readBytes s ida.toNat idl.toNat
  refine ⟨encodedAs_hpack d a b c, fun hl => raises_of_eq (if_pos hl), fun hl hh => ?hash, fun hl hh hi => ?ident,
    fun hl hh hi hd => ?dest, fun hl hh hi hd k hk hbad hbefore => ?badIdent, fun hl hh hi hd hgood => ?stored⟩
  case hash =>
    rw [← zextByte_eq_ofNat]
    exact raises_of_eq ((if_neg hl.not_gt).trans (hash_fails hh))
  case ident => exact raises_of_eq (((if_neg hl.not_gt).trans (hash_passes hh)).trans (range_fails hi))
  case dest =>
    exact raises_of_eq
      ((((if_neg hl.not_gt).trans (hash_passes hh)).trans (range_passes hi)).trans (range_fails hd))
  case badIdent =>
    have hfirst : firstBadIdent id = some k := firstBadIdent_eq_some (by omega) hbad hbefore
    exact raises_of_eq (exec_hpack_of_badIdent hl hh hi hd hfirst)
  case stored =>
    have hfirst : firstBadIdent id = none := firstBadIdent_eq_none fun k hk => hgood k (by omega)
    have hid : id.length ≤ 16 := by omega
    refine ⟨packHeader id hash (fl.extractLsb' 8 8) (fl.extractLsb' 24 8) (fl.extractLsb' 16 8),
      length_packHeader hid _ _ _ _, fun k hk => ?_,
      fun k hk h16 => getD_packHeader_padding _ _ _ _ (by omega) h16,
      getD_packHeader_tail (k := 0) _ _ _ _ hid, getD_packHeader_tail (k := 1) _ _ _ _ hid,
      getD_packHeader_tail (k := 2) _ _ _ _ hid, getD_packHeader_tail (k := 3) _ _ _ _ hid,
      completes_of_store (exec_hpack_of_identOK hl hh hi hd hfirst)⟩
    rw [getD_packHeader_ident _ _ _ _ (by omega), getD_readBytes 0 hk]

/-- Settles O38: HUNPACK's checks in R155's order, and the identifier length of R154 as the k of the statement. -/
theorem hunpackUnpacksTheHeader : Obligations.HunpackUnpacksTheHeader := by
  intro s d a b hne src h o
  have hbyte : ∀ k, k < 20 → (readBytes s src.toNat 20).getD k 0 = h k := fun k hk => getD_readBytes 0 hk
  have hlen : 16 ≤ (readBytes s src.toNat 20).length := by rw [length_readBytes]; decide
  refine ⟨encodedAs_hunpack d a b hne, fun hs => ?source, fun hs hh => ?hash, fun hs hh =>
    ⟨identLength (readBytes s src.toNat 20), identLength_le _, ?last, fun j hj h16 => ?padding, ?written⟩⟩
  case source => exact raises_of_eq ((if_neg hne).trans (range_fails hs))
  case hash =>
    rw [← hbyte 16 (by decide)] at hh ⊢
    rw [← zextByte_eq_ofNat]
    exact raises_of_eq (((if_neg hne).trans (range_passes hs)).trans (hash_fails hh))
  case last =>
    refine or_iff_not_imp_left.mpr fun hpos => ?_
    have hle := identLength_le (readBytes s src.toNat 20)
    rw [← hbyte _ (by omega)]
    exact getD_identLength_pred_ne_zero hlen hpos
  case padding =>
    rw [← hbyte j (by omega)]
    exact getD_eq_zero_of_identLength_le hlen hj h16
  case written =>
    rw [← hbyte 16 (by decide)] at hh
    rw [← hbyte 16 (by decide), ← hbyte 17 (by decide), ← hbyte 18 (by decide), ← hbyte 19 (by decide)]
    exact writes_of_setReg_setReg hne (((if_neg hne).trans (range_passes hs)).trans (hash_passes hh))

/-! ## B64E and B64D -/

/-- Settles O44: B64E's two range checks; the length checked is the length of the text stored (R162). -/
theorem b64eEncodesARange : Obligations.B64eEncodesARange := by
  intro s d a b c nopad src dst n out o
  have hlen : out.length = b64len n (!nopad) := by rw [length_b64enc, length_readBytes]
  refine ⟨encodedAs_b64e d a b c nopad, fun hs => raises_of_eq (range_fails hs),
    fun hs hd => raises_of_eq ((range_passes hs).trans (range_fails hd)), fun hs hd => ⟨hlen, ?stored⟩⟩
  case stored =>
    rw [hlen]
    exact completes_of_store_setReg ((range_passes hs).trans (range_passes hd))

section
variable {s : State} {a b : Reg} (d c : Reg) (hs : InLmem (readReg s a) (readReg s b).toNat)
include hs

theorem exec_b64d_of_error {k : Nat} (h : b64dec (readBytes s (readReg s a).toNat (readReg s b).toNat) = .error k) :
    exec (.b64d d a b c) s = raise .badBase64 (natWord k) s := (range_passes hs).trans (by rw [h])

theorem exec_b64d_of_ok {out : List Byte}
    (h : b64dec (readBytes s (readReg s a).toNat (readReg s b).toNat) = .ok out) :
    exec (.b64d d a b c) s = storeResult (readReg s d) c out s := (range_passes hs).trans (by rw [h])

end

/-- Settles O45: the source check, the decoder's answer, and the shared end of R169. -/
theorem b64dDecodesARange : Obligations.B64dDecodesARange := by
  intro s d a b c src dst n r o
  exact ⟨encodedAs_b64d d a b c, fun hs => raises_of_eq (range_fails hs),
    fun hs _ hk => raises_of_eq (exec_b64d_of_error d c hs hk),
    fun hs _ hout hd => raises_of_storeResult (exec_b64d_of_ok d c hs hout) hd,
    fun hs _ hout hd => completes_of_storeResult (exec_b64d_of_ok d c hs hout) hd⟩

/-! ## HENC and HDEC -/

/-- The parts of the human text and their lengths (R176). -/
theorem length_humanText {share : List Byte} {k : Nat} (hk : k ≤ share.length) (pad : Bool) :
    (humanText share k pad).length =
      7 + k + 1 + (decimal (share.getD 17 0)).length + 1 + b64len share.length pad := by
  simp only [humanText, List.length_append, List.length_singleton, List.length_take_of_le hk, length_b64enc]
  rfl

section
variable {s : State} {a b : Reg} (d c : Reg) (nopad : Bool) (hn : 20 ≤ (readReg s b).toNat)
  (hs : InLmem (readReg s a) (readReg s b).toNat)
include hn hs

theorem exec_henc_of_badIdent {q : Nat}
    (hq : q < identLength (readBytes s (readReg s a).toNat (readReg s b).toNat))
    (hbad : inIdset ((readBytes s (readReg s a).toNat (readReg s b).toNat).getD q 0) = false)
    (hbefore : ∀ q', q' < q → inIdset ((readBytes s (readReg s a).toNat (readReg s b).toNat).getD q' 0) = true) :
    exec (.henc d a b c nopad) s = raise .badIdent (natWord q) s := by
  have hk := identLength_le (readBytes s (readReg s a).toNat (readReg s b).toNat)
  refine ((if_neg hn.not_gt).trans (range_passes hs)).trans ?_
  rw [firstBadIdent_eq_some (k := q) (by rw [List.length_take, length_readBytes]; omega)
    (by rw [getD_take_of_lt hq, hbad]) fun q' hq' => by rw [getD_take_of_lt (hq'.trans hq), hbefore q' hq']]

theorem exec_henc_of_identOK (hid : IdentOK (readBytes s (readReg s a).toNat (readReg s b).toNat)) :
    exec (.henc d a b c nopad) s =
      storeResult (readReg s d) c
        (humanText (readBytes s (readReg s a).toNat (readReg s b).toNat)
          (identLength (readBytes s (readReg s a).toNat (readReg s b).toNat)) (!nopad)) s := by
  refine ((if_neg hn.not_gt).trans (range_passes hs)).trans ?_
  rw [firstBadIdent_eq_none fun q hq => ?_]
  have hlt := (List.length_take_le _ _).trans_lt' hq
  rw [getD_take_of_lt hlt, hid q hlt]

end

/-- Settles O46: the decimal threshold; then HENC's checks in R176's order, and the human text and its length. -/
theorem hencEncodesAShare : Obligations.HencEncodesAShare := by
  refine ⟨fun t => ⟨decimalValue_decimal t, (length_decimal t).1, (length_decimal t).2, fun ch hch => ?digit,
    decimal_no_leading_zero t⟩, fun s d a b c nopad => ?_⟩
  case digit =>
    obtain ⟨digit, hlt, rfl⟩ := decimal_digits t ch hch
    rw [toNat_digitChar hlt]
    omega
  intro src dst n share k out o
  have hlen : share.length = n.toNat := length_readBytes s src.toNat n.toNat
  refine ⟨encodedAs_henc d a b c nopad, fun hn => raises_of_eq (if_pos hn),
    fun hn hs => raises_of_eq ((if_neg hn.not_gt).trans (range_fails hs)),
    fun hn hs q hq hbad hbefore => raises_of_eq (exec_henc_of_badIdent d c nopad hn hs hq hbad hbefore),
    fun hn hs hid hd => raises_of_storeResult (exec_henc_of_identOK d c nopad hn hs hid) hd,
    fun hn hs hid hd => ⟨completes_of_storeResult (exec_henc_of_identOK d c nopad hn hs hid) hd, ?length⟩⟩
  case length =>
    have hk : k ≤ share.length := (identLength_le share).trans (by omega)
    rw [← hlen]
    exact length_humanText hk (!nopad)

section
variable {s : State} {a b : Reg} (d c : Reg) (hs : InLmem (readReg s a) (readReg s b).toNat)
include hs

theorem exec_hdec_of_badHuman {k : Nat}
    (h : hparse (readBytes s (readReg s a).toNat (readReg s b).toNat) = .error k) :
    exec (.hdec d a b c) s = raise .badHuman (natWord k) s := (range_passes hs).trans (by rw [h])

variable {q0 : Nat} (hq : hparse (readBytes s (readReg s a).toNat (readReg s b).toNat) = .ok q0)
include hq

theorem exec_hdec_of_badBase64 {k : Nat}
    (h : b64dec ((readBytes s (readReg s a).toNat (readReg s b).toNat).drop q0) = .error k) :
    exec (.hdec d a b c) s = raise .badBase64 (natWord (q0 + k)) s :=
  (range_passes hs).trans (by rw [hq]; simp only [h])

theorem exec_hdec_of_ok {out : List Byte}
    (h : b64dec ((readBytes s (readReg s a).toNat (readReg s b).toNat).drop q0) = .ok out) :
    exec (.hdec d a b c) s = storeResult (readReg s d) c out s :=
  (range_passes hs).trans (by rw [hq]; simp only [h])

end

/-- Settles O47: the source check, the pattern's answer, the decoder's answer, and the shared end of R180. -/
theorem hdecDecodesAText : Obligations.HdecDecodesAText := by
  intro s d a b c src dst n text o
  exact ⟨encodedAs_hdec d a b c, fun hs => raises_of_eq (range_fails hs),
    fun hs _ hk => raises_of_eq (exec_hdec_of_badHuman d c hs hk),
    fun hs _ hq _ hk => raises_of_eq (exec_hdec_of_badBase64 d c hs hq hk),
    fun hs _ hq _ hout hd => raises_of_storeResult (exec_hdec_of_ok d c hs hq hout) hd,
    fun hs _ hq _ hout hd => completes_of_storeResult (exec_hdec_of_ok d c hs hq hout) hd⟩

end Sys2Proof.Proofs
end

section
/-! PEVAL (42_polyeval.md R200): the count check of a sequence, field operands and field results in the words of the
statements, and then the command's word, its two checks in order, and its one register write. -/

namespace Sys2Proof.Proofs

open Sys2Proof.Machine Sys2Proof.Statements Sys2Proof.Laws

/-! ## The count check -/

/-- The model's count check is that of R200. -/
theorem countOK_iff {n : Word} : countOK n = true ↔ CountInRange n := by
  simp only [countOK, Bool.and_eq_true, decide_eq_true_eq]

section
variable {α : Type} {x y : α} {n : Word}

theorem count_passes (h : CountInRange n) : (if !countOK n then x else y) = y := by
  rw [countOK_iff.mpr h]; rfl

theorem count_fails (h : ¬ CountInRange n) : (if !countOK n then x else y) = x := by
  rw [Bool.eq_false_iff.mpr (mt countOK_iff.mp h)]; rfl

end

/-! ## Field operands and field results -/

/-- A field operand is bits [7:0] of its register (R120). -/
theorem fieldOperand_eq_lowByte (s : State) (r : Reg) : fieldOperand s r = lowByte s r :=
  BitVec.setWidth_eq_extractLsb' (by decide)

/-- A command that ends in one field result completes, with the byte zero-extended (R120). -/
theorem writes_of_setFieldReg {i : Instr} {s : State} {d : Reg} {v : Byte}
    (h : exec i s = complete (setFieldReg s d v)) : Writes i s [(d, BitVec.ofNat 32 v.toNat)] := by
  rw [← zextByte_eq_ofNat]
  exact completes_of_eq (List.nodup_singleton d) h

/-! ## PEVAL -/

theorem encodedAs_peval (d a b c : Reg) : EncodedAs (.peval d a b c) (0x40#8 ++ d ++ a ++ b ++ c ++ 0#8) := by
  refine encodedAs_of_row ?_ (formatR_and_unusedEF _ _ _ _ _) (append_zero8 _)
  simp [encode, decode, opcodeField_formatR, Instr.opcode]

/-- Settles O29: the word; then R200's count check, its range check, and the loop's value as the field result. -/
theorem pevalEvaluatesThePolynomial : Obligations.PevalEvaluatesThePolynomial := by
  intro s d a b c base n
  refine ⟨encodedAs_peval d a b c, fun hn => raises_of_eq (count_fails hn),
    fun hn hr => raises_of_eq ((count_passes hn).trans (range_fails hr)), fun hn hr => ?value⟩
  case value =>
    rw [← fieldOperand_eq_lowByte]
    exact writes_of_setFieldReg ((count_passes hn).trans (range_passes hr))

end Sys2Proof.Proofs
end

section
/-! The index check (43_lagrange.md R211): a scan of U is known by the position it has reached; a good position lets it go
on and any other ends it, so its answer is that of the first position that fails. -/

namespace Sys2Proof.Proofs

open Sys2Proof.Machine Sys2Proof.Statements Sys2Proof.Laws

/-- Position j passes R211's check: its index is not zero and differs from every earlier one. -/
def GoodIndex (U : List Byte) (j : Nat) : Prop := U.getD j 0 ≠ 0 ∧ ∀ i, i < j → U.getD i 0 ≠ U.getD j 0

/-- R211's scan of U, arrived at position j. -/
def scanFrom (U : List Byte) (j : Nat) : Option Word := indexErrorFrom (U.take j) j (U.drop j)

theorem indexError_eq_scanFrom_zero (U : List Byte) : indexError U = scanFrom U 0 := rfl

theorem scanFrom_length (U : List Byte) : scanFrom U U.length = none := by
  rw [scanFrom, List.drop_length, indexErrorFrom]

/-! ## One position of the scan -/

section
variable {U : List Byte} {j : Nat} (hj : j < U.length)
include hj

theorem scanFrom_of_zero (h0 : U.getD j 0 = 0) : scanFrom U j = some (zeroIndexInfo j) := by
  rw [scanFrom, drop_eq_getD_cons hj, indexErrorFrom, if_pos h0]

theorem scanFrom_of_duplicate {i : Nat} (h0 : U.getD j 0 ≠ 0)
    (hi : (U.take j).findIdx? (· == U.getD j 0) = some i) : scanFrom U j = some (duplicateIndexInfo i j) := by
  rw [scanFrom, drop_eq_getD_cons hj, indexErrorFrom, if_neg h0, hi]

theorem scanFrom_of_new (h0 : U.getD j 0 ≠ 0) (hnone : (U.take j).findIdx? (· == U.getD j 0) = none) :
    scanFrom U j = scanFrom U (j + 1) := by
  have htake : U.take j ++ [U.getD j 0] = U.take (j + 1) := by
    rw [List.getD_eq_getElem U 0 hj, List.take_append_getElem hj]
  rw [scanFrom, drop_eq_getD_cons hj, indexErrorFrom, if_neg h0, hnone, htake, scanFrom]

/-- The least earlier position with the same index is the one the scan finds. -/
theorem findIdx?_take_eq_some {i : Nat} (hij : i < j) (heq : U.getD i 0 = U.getD j 0)
    (hleast : ∀ i', i' < i → U.getD i' 0 ≠ U.getD j 0) : (U.take j).findIdx? (· == U.getD j 0) = some i := by
  have hlen : (U.take j).length = j := List.length_take_of_le hj.le
  refine List.findIdx?_eq_some_iff_getElem.mpr ⟨by omega, ?_, fun i' hi' => ?_⟩
  · rw [← List.getD_eq_getElem _ 0, getD_take_of_lt hij, heq, beq_self_eq_true]
  · rw [← List.getD_eq_getElem _ 0, getD_take_of_lt (hi'.trans hij), beq_iff_eq]
    exact hleast i' hi'

/-- The scan finds nothing exactly when every earlier index differs. -/
theorem findIdx?_take_eq_none_iff :
    (U.take j).findIdx? (· == U.getD j 0) = none ↔ ∀ i, i < j → U.getD i 0 ≠ U.getD j 0 := by
  have hlen : (U.take j).length = j := List.length_take_of_le hj.le
  simp only [List.findIdx?_eq_none_iff, List.forall_mem_iff_getElem, beq_eq_false_iff_ne, hlen]
  refine forall₂_congr fun i hi => ?_
  rw [← List.getD_eq_getElem _ 0, getD_take_of_lt hi]

/-- The scan goes past a good position. -/
theorem scanFrom_of_good (h : GoodIndex U j) : scanFrom U j = scanFrom U (j + 1) :=
  scanFrom_of_new hj h.1 ((findIdx?_take_eq_none_iff hj).mpr h.2)

/-- A scan that passes has found a good index where it stood. -/
theorem goodIndex_of_scanFrom_eq_none (h : scanFrom U j = none) : GoodIndex U j := by
  have h0 : U.getD j 0 ≠ 0 := fun h0 => by
    rw [scanFrom_of_zero hj h0] at h
    cases h
  refine ⟨h0, (findIdx?_take_eq_none_iff hj).mp (Option.eq_none_iff_forall_ne_some.mpr fun i hi => ?_)⟩
  rw [scanFrom_of_duplicate hj h0 hi] at h
  cases h

end

/-! ## The whole scan -/

/-- Good indices before j let the scan reach j. -/
theorem indexError_eq_scanFrom {U : List Byte} {j : Nat} (hj : j ≤ U.length)
    (hgood : ∀ j', j' < j → GoodIndex U j') : indexError U = scanFrom U j := by
  induction j with
  | zero => exact indexError_eq_scanFrom_zero U
  | succ j ih =>
    rw [ih (by omega) fun j' hj' => hgood j' (by omega), scanFrom_of_good hj (hgood j j.lt_succ_self)]

/-- The check passes exactly when every position does. -/
theorem indexError_eq_none_iff (U : List Byte) : indexError U = none ↔ ∀ j, j < U.length → GoodIndex U j := by
  refine ⟨fun hnone j => ?_, fun hgood => (indexError_eq_scanFrom le_rfl hgood).trans (scanFrom_length U)⟩
  induction j using Nat.strong_induction_on with
  | _ j ih =>
    intro hj
    have hbefore : ∀ j', j' < j → GoodIndex U j' := fun j' hj' => ih j' hj' (hj'.trans hj)
    exact goodIndex_of_scanFrom_eq_none hj ((indexError_eq_scanFrom hj.le hbefore).symm.trans hnone)

theorem gadd_eq_zero_iff {x y : Byte} : gadd x y = 0 ↔ x = y := BitVec.xor_eq_zero_iff

/-- Settles O31: the first failing position is where the scan ends; and indices that differ have a non-zero sum. -/
theorem indexCheckReportsTheFirstFailure : Obligations.IndexCheckReportsTheFirstFailure := by
  intro U good
  refine ⟨indexError_eq_none_iff U, fun j hj hbefore h0 => ?zero, fun i j hij hj hbefore h0 heq hleast => ?duplicate,
    fun hnone i j hi hj hne hsum => ?divisor⟩
  case zero => exact (indexError_eq_scanFrom hj.le hbefore).trans (scanFrom_of_zero hj h0)
  case duplicate =>
    exact (indexError_eq_scanFrom hj.le hbefore).trans
      (scanFrom_of_duplicate hj h0 (findIdx?_take_eq_some hj hij heq hleast))
  case divisor =>
    have hgood := (indexError_eq_none_iff U).mp hnone
    have heq : U.getD j 0 = U.getD i 0 := gadd_eq_zero_iff.mp hsum
    rcases hne.lt_or_gt with hlt | hgt
    · exact (hgood j hj).2 i hlt heq.symm
    · exact (hgood i hi).2 j hgt heq

end Sys2Proof.Proofs
end

section
/-! LAGR, LBASIS and GDOT (43_lagrange.md R213 to R215): strided elements in the words of the statements, the three
commands' words, and each command's checks in order to the end that a clause names. -/

namespace Sys2Proof.Proofs

open Sys2Proof.Machine Sys2Proof.Statements Sys2Proof.Laws

/-! ## Strided elements (R65) -/

theorem stridedAddrs_eq (base stride : Word) (n : Nat) :
    stridedAddrs base stride n = (List.range n).map (element base stride) := rfl

theorem gather_stridedAddrs (s : State) (base stride : Word) (n : Nat) :
    gather s (stridedAddrs base stride n) = elementBytes s base stride n := List.map_map

theorem byteOK_iff {addr : Word} : byteOK addr = true ↔ addr.toNat < Config.lmemSize := decide_eq_true_iff

theorem byteOK_eq_false_iff {addr : Word} : byteOK addr = false ↔ Config.lmemSize ≤ addr.toNat :=
  decide_eq_false_iff_not.trans not_lt

theorem firstOutside_eq_some {base stride : Word} {n i : Nat} (hi : i < n)
    (hout : Config.lmemSize ≤ (element base stride i).toNat)
    (hin : ∀ i', i' < i → (element base stride i').toNat < Config.lmemSize) :
    firstOutside (stridedAddrs base stride n) = some (element base stride i) := by
  have hfirst : (List.range n).find? ((fun a => !byteOK a) ∘ element base stride) = some i := by
    refine List.find?_range_eq_some.mpr ⟨?_, List.mem_range.mpr hi, fun i' hi' => ?_⟩
    · rw [Function.comp_apply, byteOK_eq_false_iff.mpr hout]; rfl
    · rw [Function.comp_apply, byteOK_iff.mpr (hin i' hi')]; rfl
  rw [firstOutside, stridedAddrs_eq, List.find?_map, hfirst]
  rfl

theorem firstOutside_eq_none {base stride : Word} {n : Nat}
    (hin : ∀ i, i < n → (element base stride i).toNat < Config.lmemSize) :
    firstOutside (stridedAddrs base stride n) = none := by
  rw [firstOutside, stridedAddrs_eq, List.find?_eq_none]
  intro addr haddr
  obtain ⟨i, hi, rfl⟩ := List.mem_map.mp haddr
  rw [byteOK_iff.mpr (hin i (List.mem_range.mp hi))]
  decide

/-! ## The words -/

@[simp] theorem fieldE_formatR (op : BitVec 8) (d a b c e : Reg) (f : BitVec 4) :
    fieldE (formatR op d a b c e f) = e := by
  ext i hi
  simp only [fieldE, formatR, BitVec.getElem_extractLsb', BitVec.getLsbD_append]
  grind

/-- The unused field f of LAGR and GDOT is 0. -/
theorem formatR_and_unusedF (op : BitVec 8) (d a b c e : Reg) : formatR op d a b c e 0 &&& 0x0000000F = 0 := by
  rw [show (0x0000000F : Word) = formatR 0 0 0 0 0 0 0xF from rfl, formatR_and_formatR]
  simp only [BitVec.and_zero, BitVec.zero_and, BitVec.ofNat_eq_ofNat]
  rfl

/-- The unused fields b, e and f of LBASIS are 0. -/
theorem formatR_and_unusedBEF (op : BitVec 8) (d a c : Reg) : formatR op d a 0 c 0 0 &&& 0x0000F0FF = 0 := by
  rw [show (0x0000F0FF : Word) = formatR 0 0 0 0xF 0 0xF 0xF from rfl, formatR_and_formatR]
  simp only [BitVec.and_zero, BitVec.zero_and, BitVec.ofNat_eq_ofNat]
  rfl

theorem encodedAs_lagr (d a b c e : Reg) :
    EncodedAs (.lagr d a b c e) (0x41#8 ++ d ++ a ++ b ++ c ++ e ++ 0#4) := by
  refine encodedAs_of_row ?_ (formatR_and_unusedF _ _ _ _ _ _) rfl
  simp [encode, decode, opcodeField_formatR, Instr.opcode]

theorem encodedAs_lbasis (d a c : Reg) : EncodedAs (.lbasis d a c) (0x42#8 ++ d ++ a ++ 0#4 ++ c ++ 0#8) := by
  refine encodedAs_of_row ?_ (formatR_and_unusedBEF _ _ _ _) (append_zero8 _)
  simp [encode, decode, opcodeField_formatR, Instr.opcode]

theorem encodedAs_gdot (d a b c e : Reg) :
    EncodedAs (.gdot d a b c e) (0x43#8 ++ d ++ a ++ b ++ c ++ e ++ 0#4) := by
  refine encodedAs_of_row ?_ (formatR_and_unusedF _ _ _ _ _ _) rfl
  simp [encode, decode, opcodeField_formatR, Instr.opcode]

/-! ## LAGR -/

section
variable {s : State} {a b c e : Reg} (d : Reg) (hn : CountInRange (readReg s c))
  (hu : InLmem (readReg s a) (readReg s c).toNat)
include hn hu

theorem exec_lagr_of_outside {va : Word}
    (hv : firstOutside (stridedAddrs (readReg s b) (readReg s e) (readReg s c).toNat) = some va) :
    exec (.lagr d a b c e) s = raise .memRange va s :=
  ((count_passes hn).trans (range_passes hu)).trans (by rw [hv])

variable (hv : firstOutside (stridedAddrs (readReg s b) (readReg s e) (readReg s c).toNat) = none)
include hv

theorem exec_lagr_of_badIndex {info : Word}
    (hx : indexError (readBytes s (readReg s a).toNat (readReg s c).toNat) = some info) :
    exec (.lagr d a b c e) s = raise .badIndex info s :=
  ((count_passes hn).trans (range_passes hu)).trans (by rw [hv]; simp only [hx])

theorem exec_lagr_of_indexOK (hx : indexError (readBytes s (readReg s a).toNat (readReg s c).toNat) = none) :
    exec (.lagr d a b c e) s =
      complete (setFieldReg s d (interp (readBytes s (readReg s a).toNat (readReg s c).toNat)
        (elementBytes s (readReg s b) (readReg s e) (readReg s c).toNat))) := by
  rw [← gather_stridedAddrs]
  exact ((count_passes hn).trans (range_passes hu)).trans (by rw [hv]; simp only [hx])

end

/-- Settles O32: LAGR's checks in R213's order, and the interpolated byte as the field result. -/
theorem lagrInterpolatesAtZero : Obligations.LagrInterpolatesAtZero := by
  intro s d a b c e ua n va U o
  exact ⟨encodedAs_lagr d a b c e, fun hn => raises_of_eq (count_fails hn),
    fun hn hu => raises_of_eq ((count_passes hn).trans (range_fails hu)),
    fun hn hu _ hi hout hin => raises_of_eq (exec_lagr_of_outside d hn hu (firstOutside_eq_some hi hout hin)),
    fun hn hu hin _ hx => raises_of_eq (exec_lagr_of_badIndex d hn hu (firstOutside_eq_none hin) hx),
    fun hn hu hin hx => writes_of_setFieldReg (exec_lagr_of_indexOK d hn hu (firstOutside_eq_none hin) hx)⟩

/-! ## LBASIS -/

section
variable {s : State} {d a c : Reg} (hn : CountInRange (readReg s c)) (hu : InLmem (readReg s a) (readReg s c).toNat)
  (hd : InLmem (readReg s d) (readReg s c).toNat)
include hn hu hd

theorem exec_lbasis_of_badIndex {info : Word}
    (hx : indexError (readBytes s (readReg s a).toNat (readReg s c).toNat) = some info) :
    exec (.lbasis d a c) s = raise .badIndex info s :=
  (((count_passes hn).trans (range_passes hu)).trans (range_passes hd)).trans (by rw [hx])

theorem exec_lbasis_of_indexOK (hx : indexError (readBytes s (readReg s a).toNat (readReg s c).toNat) = none) :
    exec (.lbasis d a c) s =
      complete (writeBytes s (readReg s d).toNat (basis (readBytes s (readReg s a).toNat (readReg s c).toNat))) :=
  (((count_passes hn).trans (range_passes hu)).trans (range_passes hd)).trans (by rw [hx])

end

/-- Settles O33: LBASIS's checks in R214's order, and the basis of the indices as the one store. -/
theorem lbasisStoresTheBasis : Obligations.LbasisStoresTheBasis := by
  intro s d a c ua dst n U o
  have hlen : (basis U).length = n.toNat := (length_basis U).trans (length_readBytes s ua.toNat n.toNat)
  exact ⟨encodedAs_lbasis d a c, fun hn => raises_of_eq (count_fails hn),
    fun hn hu => raises_of_eq ((count_passes hn).trans (range_fails hu)),
    fun hn hu hd => raises_of_eq (((count_passes hn).trans (range_passes hu)).trans (range_fails hd)),
    fun hn hu hd _ hx => raises_of_eq (exec_lbasis_of_badIndex hn hu hd hx),
    fun hn hu hd hx => ⟨completes_of_store (exec_lbasis_of_indexOK hn hu hd hx), hlen⟩⟩

/-! ## GDOT -/

/-- The dot product of a range and strided elements, as the loop of R215. -/
theorem dot_readBytes_elementBytes (s : State) (addr n : Nat) (base stride : Word) :
    dot (readBytes s addr n) (elementBytes s base stride n) =
      (List.range n).foldl
        (fun y i => y ^^^ gmul (byteAt s (addr + i)) (byteAt s (element base stride i).toNat)) 0x00 := by
  rw [dot, readBytes, elementBytes, List.range'_eq_map_range, List.map_map, List.zip_map', List.foldl_map]
  rfl

section
variable {s : State} {a b c e : Reg} (d : Reg) (hn : CountInRange (readReg s c))
  (ha : InLmem (readReg s a) (readReg s c).toNat)
include hn ha

theorem exec_gdot_of_outside {ba : Word}
    (hb : firstOutside (stridedAddrs (readReg s b) (readReg s e) (readReg s c).toNat) = some ba) :
    exec (.gdot d a b c e) s = raise .memRange ba s :=
  ((count_passes hn).trans (range_passes ha)).trans (by rw [hb])

theorem exec_gdot_of_inside
    (hb : firstOutside (stridedAddrs (readReg s b) (readReg s e) (readReg s c).toNat) = none) :
    exec (.gdot d a b c e) s =
      complete (setFieldReg s d (dot (readBytes s (readReg s a).toNat (readReg s c).toNat)
        (elementBytes s (readReg s b) (readReg s e) (readReg s c).toNat))) := by
  rw [← gather_stridedAddrs]
  exact ((count_passes hn).trans (range_passes ha)).trans (by rw [hb])

end

/-- Settles O34: GDOT's checks in R215's order, and the sum of the products as the field result. -/
theorem gdotSumsTheProducts : Obligations.GdotSumsTheProducts := by
  intro s d a b c e aa n ba o
  refine ⟨encodedAs_gdot d a b c e, fun hn => raises_of_eq (count_fails hn),
    fun hn ha => raises_of_eq ((count_passes hn).trans (range_fails ha)),
    fun hn ha _ hi hout hin => raises_of_eq (exec_gdot_of_outside d hn ha (firstOutside_eq_some hi hout hin)),
    fun hn ha hin => ?value⟩
  case value =>
    rw [← dot_readBytes_elementBytes]
    exact writes_of_setFieldReg (exec_gdot_of_inside d hn ha (firstOutside_eq_none hin))

end Sys2Proof.Proofs
end

section
/-! The sequencer control commands (44_control.md R230 to R235): their words in formats N and I, the branch target over
the integers, and what a branch leaves whether it is taken or not. -/

namespace Sys2Proof.Proofs

open Sys2Proof.Machine Sys2Proof.Statements Sys2Proof.Laws

/-! ## Format I words (R91, R93) -/

section
variable (op : BitVec 8) (d a : Reg) (imm : Imm16)

@[simp] theorem fieldA_formatI : fieldA (formatI op d a imm) = a := by
  ext i hi
  simp only [fieldA, formatI, BitVec.getElem_extractLsb', BitVec.getLsbD_append]
  grind

@[simp] theorem fieldImm_formatI : fieldImm (formatI op d a imm) = imm := by
  ext i hi
  simp only [fieldImm, formatI, BitVec.getElem_extractLsb', BitVec.getLsbD_append]
  grind

/-- A mask cuts a format I word field by field. -/
theorem formatI_and_formatI (op' : BitVec 8) (d' a' : Reg) (imm' : Imm16) :
    formatI op d a imm &&& formatI op' d' a' imm' = formatI (op &&& op') (d &&& d') (a &&& a') (imm &&& imm') := by
  ext i hi
  simp only [formatI, BitVec.getElem_and, BitVec.getElem_append]
  grind

/-- The unused field d of BZ and BNZ is 0. -/
theorem formatI_and_unusedD : formatI op 0 a imm &&& 0x00F00000 = 0 := by
  rw [show (0x00F00000 : Word) = formatI 0 0xF 0 0 from rfl, formatI_and_formatI]
  simp only [BitVec.and_zero, BitVec.zero_and, BitVec.ofNat_eq_ofNat]
  rfl

/-- The unused fields d and a of J are 0. -/
theorem formatI_and_unusedDA : formatI op 0 0 imm &&& 0x00FF0000 = 0 := by
  rw [show (0x00FF0000 : Word) = formatI 0 0xF 0xF 0 from rfl, formatI_and_formatI]
  simp only [BitVec.and_zero, BitVec.zero_and, BitVec.ofNat_eq_ofNat]
  rfl

end

/-! ## The words (R95) -/

theorem encodedAs_nop : EncodedAs .nop 0x01000000 := ⟨rfl, rfl⟩

theorem encodedAs_halt : EncodedAs .halt 0x02000000 := ⟨rfl, rfl⟩

theorem encodedAs_j (imm : Imm16) : EncodedAs (.j imm) (0x03#8 ++ 0#8 ++ imm) := by
  have hzero : 0x03#8 ++ 0#4 ++ 0#4 = 0x03#8 ++ 0#8 := rfl
  refine encodedAs_of_row ?_ (formatI_and_unusedDA _ _) (congrArg (· ++ imm) hzero)
  simp [encode, decode, opcodeField_formatI, Instr.opcode]

theorem encodedAs_bz (a : Reg) (imm : Imm16) : EncodedAs (.bz a imm) (0x04#8 ++ 0#4 ++ a ++ imm) := by
  refine encodedAs_of_row ?_ (formatI_and_unusedD _ _ _) rfl
  simp [encode, decode, opcodeField_formatI, Instr.opcode]

theorem encodedAs_bnz (a : Reg) (imm : Imm16) : EncodedAs (.bnz a imm) (0x05#8 ++ 0#4 ++ a ++ imm) := by
  refine encodedAs_of_row ?_ (formatI_and_unusedD _ _ _) rfl
  simp [encode, decode, opcodeField_formatI, Instr.opcode]

/-! ## HALT -/

/-- Settles O19: the word, and HALT's answer, which is the stop after the move to pc + 4 that counts the command. -/
theorem haltStopsTheEngine : Obligations.HaltStopsTheEngine :=
  ⟨encodedAs_halt, fun _ => rfl⟩

/-! ## NOP and the branches -/

/-- The branch target of R231 over the integers: the signed offset counts words, and the sum is taken modulo 2^32. -/
theorem branchTarget_eq_ofInt (pc : Word) (imm : Imm16) :
    branchTarget pc imm = BitVec.ofInt 32 (pc.toNat + imm.toInt * 4) := by
  rw [BitVec.ofInt_add, BitVec.ofInt_mul, BitVec.ofInt_natCast, BitVec.ofNat_toNat, BitVec.setWidth_eq]
  rfl

/-- A command that only moves pc and counts, such as NOP, completes with no register and no byte written. -/
theorem completes_of_finish {i : Instr} {s : State} {next : Word} (h : exec i s = .next (finish next s)) :
    Completes i s [] 0 [] next :=
  completes_of_eq List.nodup_nil h

theorem completes_j (s : State) (imm : Imm16) :
    Completes (.j imm) s [] 0 [] (BitVec.ofInt 32 (s.pc.toNat + imm.toInt * 4)) := by
  rw [← branchTarget_eq_ofInt]
  exact completes_of_finish rfl

/-- A conditional branch completes at its target if its condition holds, and at the next command otherwise. -/
theorem completes_of_branchIf {i : Instr} {s : State} {taken : Bool} {imm : Imm16} {p : Prop} [Decidable p]
    (hp : taken = true ↔ p) (h : exec i s = branchIf taken imm s) :
    Completes i s [] 0 [] (if p then BitVec.ofInt 32 (s.pc.toNat + imm.toInt * 4) else s.pc + 4) := by
  rw [← branchTarget_eq_ofInt, ← if_congr hp rfl rfl]
  exact completes_of_finish h

/-- BZ's test reads all 32 bits of the register. -/
theorem beq_zero_iff_toNat {w : Word} : (w == 0) = true ↔ w.toNat = 0 :=
  beq_iff_eq.trans BitVec.toNat_eq

/-- BNZ's test is the negation of BZ's. -/
theorem bne_zero_iff_toNat {w : Word} : (w != 0) = true ↔ w.toNat ≠ 0 :=
  bne_iff_ne.trans (not_congr BitVec.toNat_eq)

/-- Settles O20: the four words; NOP moves on; J goes to its target, and BZ and BNZ take it by their tests. -/
theorem nopAndBranchesSetPc : Obligations.NopAndBranchesSetPc := by
  intro s imm a target
  refine ⟨encodedAs_nop, encodedAs_j imm, encodedAs_bz a imm, encodedAs_bnz a imm, completes_of_finish rfl,
    completes_j s imm, completes_of_branchIf beq_zero_iff_toNat rfl, completes_of_branchIf bne_zero_iff_toNat rfl⟩

end Sys2Proof.Proofs
end

section
/-! The integer commands (45_integer_loadstore.md R250 to R255): their words in formats I and R, and each result as a
number modulo 2^32. -/

namespace Sys2Proof.Proofs

open Sys2Proof.Machine Sys2Proof.Statements Sys2Proof.Laws

/-! ## The words (R95) -/

@[simp] theorem fieldD_formatI (op : BitVec 8) (d a : Reg) (imm : Imm16) : fieldD (formatI op d a imm) = d := by
  ext i hi
  simp only [fieldD, formatI, BitVec.getElem_extractLsb', BitVec.getLsbD_append]
  grind

/-- The unused field a of LI and LUI is 0. -/
theorem formatI_and_unusedA (op : BitVec 8) (d : Reg) (imm : Imm16) : formatI op d 0 imm &&& 0x000F0000 = 0 := by
  rw [show (0x000F0000 : Word) = formatI 0 0 0xF 0 from rfl, formatI_and_formatI]
  simp only [BitVec.and_zero, BitVec.zero_and, BitVec.ofNat_eq_ofNat]
  rfl

section
variable (d a b : Reg) (imm : Imm16)

theorem encodedAs_li : EncodedAs (.li d imm) (0x10#8 ++ d ++ 0#4 ++ imm) := by
  refine encodedAs_of_row ?_ (formatI_and_unusedA _ _ _) rfl
  simp [encode, decode, opcodeField_formatI, Instr.opcode]

theorem encodedAs_lui : EncodedAs (.lui d imm) (0x11#8 ++ d ++ 0#4 ++ imm) := by
  refine encodedAs_of_row ?_ (formatI_and_unusedA _ _ _) rfl
  simp [encode, decode, opcodeField_formatI, Instr.opcode]

theorem encodedAs_addi : EncodedAs (.addi d a imm) (0x12#8 ++ d ++ a ++ imm) := by
  refine encodedAs_of_row ?_ BitVec.and_zero rfl
  simp [encode, decode, opcodeField_formatI, Instr.opcode]

theorem encodedAs_add : EncodedAs (.add d a b) (0x13#8 ++ d ++ a ++ b ++ 0#12) := by
  refine encodedAs_of_row ?_ (formatR_and_unusedCEF _ _ _ _) (append_zero12 _)
  simp [encode, decode, opcodeField_formatR, Instr.opcode]

theorem encodedAs_sub : EncodedAs (.sub d a b) (0x14#8 ++ d ++ a ++ b ++ 0#12) := by
  refine encodedAs_of_row ?_ (formatR_and_unusedCEF _ _ _ _) (append_zero12 _)
  simp [encode, decode, opcodeField_formatR, Instr.opcode]

end

/-! ## One register write -/

/-- A command that ends in one register write, such as LI, completes. -/
theorem writes_of_setReg {i : Instr} {s : State} {d : Reg} {v : Word} (h : exec i s = complete (setReg s d v)) :
    Writes i s [(d, v)] :=
  completes_of_eq (List.nodup_singleton d) h

/-! ## LI and LUI: the halves of a constant -/

/-- LI's immediate is zero-extended (R93). -/
theorem zextImm_eq_ofNat (imm : Imm16) : zextImm imm = BitVec.ofNat 32 imm.toNat := (BitVec.ofNat_toNat 32 imm).symm

/-- LUI's word as a number: the immediate counts 65536s above the low half that is kept. -/
theorem append_extractLsb'_eq_ofNat (imm : Imm16) (w : Word) :
    imm ++ w.extractLsb' 0 16 = BitVec.ofNat 32 (imm.toNat * 65536 + w.toNat % 65536) := by
  have hlow : w.toNat % 65536 < 65536 := Nat.mod_lt _ (by decide)
  have hsum : imm.toNat * 65536 + w.toNat % 65536 < 2 ^ 32 := by omega
  apply BitVec.eq_of_toNat_eq
  calc (imm ++ w.extractLsb' 0 16).toNat
      = imm.toNat <<< 16 ||| w.toNat % 65536 := by
        rw [BitVec.toNat_append, BitVec.extractLsb'_toNat, Nat.shiftRight_zero]
    _ = imm.toNat * 65536 + w.toNat % 65536 := by
        rw [← Nat.shiftLeft_add_eq_or_of_lt hlow, Nat.shiftLeft_eq]
    _ = (BitVec.ofNat 32 (imm.toNat * 65536 + w.toNat % 65536)).toNat := by
        rw [BitVec.toNat_ofNat, Nat.mod_eq_of_lt hsum]

/-- Settles O21: both words, and each result as the number of its two halves. -/
theorem liAndLuiBuildConstants : Obligations.LiAndLuiBuildConstants := by
  intro s d imm
  refine ⟨encodedAs_li d imm, encodedAs_lui d imm, ?li, ?lui⟩
  case li =>
    rw [← zextImm_eq_ofNat]
    exact writes_of_setReg rfl
  case lui =>
    rw [← append_extractLsb'_eq_ofNat]
    exact writes_of_setReg rfl

/-! ## ADDI, ADD and SUB: arithmetic modulo 2^32 -/

/-- The unsigned reading of a word gives back its bits modulo 2^32. -/
theorem ofInt_toNat (w : Word) : BitVec.ofInt 32 w.toNat = w := by
  rw [BitVec.ofInt_natCast, BitVec.ofNat_toNat, BitVec.setWidth_eq]

/-- Base plus signed immediate, over the integers modulo 2^32 (R252, R258). -/
theorem add_sextImm_eq_ofInt (w : Word) (imm : Imm16) :
    w + sextImm imm = BitVec.ofInt 32 (w.toNat + imm.toInt) := by
  rw [BitVec.ofInt_add, ofInt_toNat]
  rfl

/-- Subtraction modulo 2^32 is that of the integers. -/
theorem ofInt_sub (m n : Int) : BitVec.ofInt 32 (m - n) = BitVec.ofInt 32 m - BitVec.ofInt 32 n := by
  rw [Int.sub_eq_add_neg, BitVec.ofInt_add, BitVec.ofInt_neg, BitVec.sub_eq_add_neg]

theorem sub_eq_ofInt (v w : Word) : v - w = BitVec.ofInt 32 (v.toNat - w.toNat) := by
  rw [ofInt_sub, ofInt_toNat, ofInt_toNat]

/-- Settles O22: the three words, the three results as integers modulo 2^32, and the same sums and difference of the
signed readings, which are those of the words themselves. -/
theorem integerCommandsWrapModulo2To32 : Obligations.IntegerCommandsWrapModulo2To32 := by
  intro s d a b imm
  rw [← add_sextImm_eq_ofInt, ← BitVec.add_def, ← sub_eq_ofInt, BitVec.ofInt_add, BitVec.ofInt_add, ofInt_sub,
    BitVec.ofInt_toInt, BitVec.ofInt_toInt]
  exact ⟨encodedAs_addi d a imm, encodedAs_add d a b, encodedAs_sub d a b, writes_of_setReg rfl, writes_of_setReg rfl,
    writes_of_setReg rfl, rfl, rfl, rfl⟩

end Sys2Proof.Proofs
end

section
/-! LDB and STB (45_integer_loadstore.md R256 to R258): their words, the effective address over the integers, the byte
check passed or failed, and what each command then loads, stores or raises. -/

namespace Sys2Proof.Proofs

open Sys2Proof.Machine Sys2Proof.Statements Sys2Proof.Laws

/-! ## The words (R95) -/

section
variable (d a : Reg) (imm : Imm16)

theorem encodedAs_ldb : EncodedAs (.ldb d a imm) (0x20#8 ++ d ++ a ++ imm) := by
  refine encodedAs_of_row ?_ BitVec.and_zero rfl
  simp [encode, decode, opcodeField_formatI, Instr.opcode]

theorem encodedAs_stb : EncodedAs (.stb d a imm) (0x21#8 ++ d ++ a ++ imm) := by
  refine encodedAs_of_row ?_ BitVec.and_zero rfl
  simp [encode, decode, opcodeField_formatI, Instr.opcode]

end

/-! ## The address and its check (R64, R258) -/

theorem effectiveAddress_eq_ofInt (s : State) (a : Reg) (imm : Imm16) :
    effectiveAddress s a imm = BitVec.ofInt 32 ((readReg s a).toNat + imm.toInt) :=
  add_sextImm_eq_ofInt _ _

section
variable {α : Type} {x y : α} {addr : Word}

theorem byte_passes (h : addr.toNat < Config.lmemSize) : (if !byteOK addr then x else y) = y := by
  rw [byteOK_iff.mpr h]; rfl

theorem byte_fails (h : Config.lmemSize ≤ addr.toNat) : (if !byteOK addr then x else y) = x := by
  rw [byteOK_eq_false_iff.mpr h]; rfl

end

/-! ## LDB and STB -/

/-- STB in LMEM stores the low byte of its data register. -/
theorem exec_stb_of_inside {s : State} {a : Reg} {imm : Imm16} (d : Reg)
    (h : (effectiveAddress s a imm).toNat < Config.lmemSize) :
    exec (.stb d a imm) s = complete (writeBytes s (effectiveAddress s a imm).toNat [lowByte s d]) := by
  rw [← fieldOperand_eq_lowByte]
  exact byte_passes h

/-- Settles O23: both words; then R64's byte check, which lets the byte at the effective address be loaded or stored, or
raises MEM_RANGE with that address. -/
theorem ldbAndStbAccessOneByte : Obligations.LdbAndStbAccessOneByte := by
  intro s d a imm ea
  have hea : ea = effectiveAddress s a imm := (effectiveAddress_eq_ofInt s a imm).symm
  rw [hea]
  refine ⟨encodedAs_ldb d a imm, encodedAs_stb d a imm, fun hin => ⟨?load, ?store⟩, fun hout => ⟨?ldb, ?stb⟩⟩
  case load => exact writes_of_setFieldReg (byte_passes hin)
  case store => exact completes_of_store (exec_stb_of_inside d hin)
  case ldb => exact raises_of_eq (byte_fails hout)
  case stb => exact raises_of_eq (byte_fails hout)

end Sys2Proof.Proofs
end

section
/-! The errors of the commands and the interrupt output (60_exceptions.md R276, R285): a command that sets ERR has taken
the error entry, and STATUS, IRQEN and irq meet in the three source bits, HACC, ERR and DONE. -/

namespace Sys2Proof.Proofs

open Sys2Proof.Machine Sys2Proof.Statements Sys2Proof.Laws

/-! ## A command that sets ERR raised -/

theorem err_of_commits {s u : State} (h : Commits s u) : u.err = s.err := by rw [h.rest]

/-- Among the ends of a command other than HALT, only the error entry sets ERR. -/
theorem eq_raise_of_ends_of_err {s t : State} {o : Result} (h : Ends s o) (ho : o = .next t) (hs : s.err = false)
    (ht : t.err = true) : ∃ e info, (e ≠ .none ∧ e ≠ .aborted) ∧ o = raise e info s := by
  cases h with
  | raised e info he => exact ⟨e, info, he, rfl⟩
  | completed u hu =>
    cases ho
    rw [finish_err, err_of_commits hu, hs] at ht
    cases ht
  | branched imm =>
    cases ho
    rw [finish_err, hs] at ht
    cases ht

/-- Settles O11: HALT and a command that completes or branches keep ERR, so the command ended in the error entry. -/
theorem errorsArePrecise : Obligations.ErrorsArePrecise := by
  intro i s t hs ho ht
  rcases exec_cases i s with ⟨-, hhalt⟩ | ⟨-, hends⟩
  · cases hhalt.symm.trans ho
    rw [stop_err, finish_err, hs] at ht
    cases ht
  · obtain ⟨e, info, ⟨hnone, haborted⟩, hraise⟩ := eq_raise_of_ends_of_err hends ho hs ht
    exact ⟨e, info, hnone, haborted, raises_of_eq hraise⟩

/-! ## The source bits of STATUS and IRQEN (R35, R37) -/

/-- The word with bits 3, 2 and 1 at the places of HACC, ERR and DONE, and no other bit. -/
def sourceWord (hacc err done : Bool) : Word :=
  0#28 ++ BitVec.ofBool hacc ++ BitVec.ofBool err ++ BitVec.ofBool done ++ 0#1

theorem irqenWord_eq_sourceWord (s : State) : irqenWord s = sourceWord s.haccIE s.errIE s.doneIE := rfl

/-- The mask of bits 3 to 1 keeps those bits of a word. -/
theorem and_sourceMask (v : Word) : v &&& 0x0000000E = sourceWord (v.getLsbD 3) (v.getLsbD 2) (v.getLsbD 1) := by
  have hmask : (0x0000000E : Word) = sourceWord true true true := rfl
  ext i hi
  simp only [hmask, sourceWord, BitVec.getElem_and]
  grind

theorem sourceWord_eq_zero_iff {h e d : Bool} : sourceWord h e d = 0 ↔ h = false ∧ e = false ∧ d = false := by
  revert h e d
  decide

/-- Masking STATUS with source bits masks its three sources one by one, and cuts off BUSY and ERRCODE. -/
theorem statusWord_and_sourceWord (s : State) (h e d : Bool) :
    statusWord s &&& sourceWord h e d = sourceWord (s.hacc && h) (s.err && e) (s.done && d) := by
  simp only [statusWord, sourceWord, BitVec.and_append (w := 31) (v := 1), BitVec.and_append (w := 30) (v := 1),
    BitVec.and_append (w := 29) (v := 1), BitVec.and_append (w := 28) (v := 1), BitVec.ofBool_and_ofBool,
    BitVec.and_zero]

/-- irq is low exactly when none of the three sources is both set and enabled. -/
theorem irq_eq_false_iff (s : State) : irq s = false ↔ statusWord s &&& irqenWord s = 0 := by
  rw [irqenWord_eq_sourceWord, statusWord_and_sourceWord, sourceWord_eq_zero_iff, irq, Bool.or_eq_false_iff,
    Bool.or_eq_false_iff]
  tauto

/-- A STATUS write leaves no source set whose bit was written 1 (R36). -/
theorem statusWord_writeStatus_and (s : State) (v : Word) :
    statusWord (writeStatus v s) &&& v &&& 0x0000000E = 0 := by
  rw [BitVec.and_assoc, and_sourceMask, statusWord_and_sourceWord, sourceWord_eq_zero_iff]
  simp only [writeStatus_hacc, writeStatus_err, writeStatus_done, Bool.and_assoc, Bool.not_and_self, Bool.and_false,
    and_self]

/-- Settles O58: irq by the source bits that both words set; IRQEN is no part of STATUS; then the two ways to clear. -/
theorem irqFollowsStatusAndEnables : Obligations.IrqFollowsStatusAndEnables := by
  intro s v
  refine ⟨?level, rfl, statusWord_writeStatus_and s v, start_done s, start_err s⟩
  case level => rw [← Bool.not_eq_false, ne_eq, irq_eq_false_iff]

end Sys2Proof.Proofs
end

section
/-! Decoding and encoding as inverses (30_encoding.md R95 to R100): a decoded word fits its row of the mask table, a word
that fits a row is the word of a well-formed command, and the word of a well-formed command decodes to it. -/

namespace Sys2Proof.Proofs

open Sys2Proof.Machine Sys2Proof.Statements Sys2Proof.Laws

/-! ## The words of the field commands (R95) -/

/-- The unused fields b, c, e and f of GEXP and GLOG are 0. -/
theorem formatR_and_unusedBCEF (op : BitVec 8) (d a : Reg) : formatR op d a 0 0 0 0 &&& 0x0000FFFF = 0 := by
  rw [show (0x0000FFFF : Word) = formatR 0 0 0 0xF 0xF 0xF 0xF from rfl, formatR_and_formatR]
  simp only [BitVec.and_zero, BitVec.zero_and, BitVec.ofNat_eq_ofNat]
  rfl

theorem append_zero16 (x : BitVec 16) : x ++ 0#4 ++ 0#4 ++ 0#4 ++ 0#4 = x ++ 0#16 := by
  rw [BitVec.append_assoc, BitVec.append_assoc, BitVec.append_assoc]; rfl

section
variable (d a b : Reg)

theorem encodedAs_gadd : EncodedAs (.gadd d a b) (0x30#8 ++ d ++ a ++ b ++ 0#12) := by
  refine encodedAs_of_row ?_ (formatR_and_unusedCEF _ _ _ _) (append_zero12 _)
  simp [encode, decode, opcodeField_formatR, Instr.opcode]

theorem encodedAs_gmul : EncodedAs (.gmul d a b) (0x31#8 ++ d ++ a ++ b ++ 0#12) := by
  refine encodedAs_of_row ?_ (formatR_and_unusedCEF _ _ _ _) (append_zero12 _)
  simp [encode, decode, opcodeField_formatR, Instr.opcode]

theorem encodedAs_gdiv : EncodedAs (.gdiv d a b) (0x32#8 ++ d ++ a ++ b ++ 0#12) := by
  refine encodedAs_of_row ?_ (formatR_and_unusedCEF _ _ _ _) (append_zero12 _)
  simp [encode, decode, opcodeField_formatR, Instr.opcode]

theorem encodedAs_gexp : EncodedAs (.gexp d a) (0x33#8 ++ d ++ a ++ 0#16) := by
  refine encodedAs_of_row ?_ (formatR_and_unusedBCEF _ _ _) (append_zero16 _)
  simp [encode, decode, opcodeField_formatR, Instr.opcode]

theorem encodedAs_glog : EncodedAs (.glog d a) (0x34#8 ++ d ++ a ++ 0#16) := by
  refine encodedAs_of_row ?_ (formatR_and_unusedBCEF _ _ _) (append_zero16 _)
  simp [encode, decode, opcodeField_formatR, Instr.opcode]

end

/-! ## Decoding an encoding -/

theorem decode_encode_of_encodedAs {i : Instr} {w : Word} (h : EncodedAs i w) : decode (encode i) = .ok i := by
  rw [h.2, h.1]

/-- HUNPACK is the one command whose operands can make it ill-formed (R98). -/
theorem wellFormed_hunpack_iff {d a b : Reg} : (Instr.hunpack d a b).wellFormed = true ↔ d ≠ b := by
  by_cases h : d = b <;> simp [Instr.wellFormed, Instr.formError, h]

/-- The word of every well-formed command decodes to it, row by row of R95. -/
theorem decode_encode (i : Instr) (hi : i.wellFormed = true) : decode (encode i) = .ok i := by
  cases i with
  | nop => exact decode_encode_of_encodedAs encodedAs_nop
  | halt => exact decode_encode_of_encodedAs encodedAs_halt
  | j imm => exact decode_encode_of_encodedAs (encodedAs_j imm)
  | bz a imm => exact decode_encode_of_encodedAs (encodedAs_bz a imm)
  | bnz a imm => exact decode_encode_of_encodedAs (encodedAs_bnz a imm)
  | li d imm => exact decode_encode_of_encodedAs (encodedAs_li d imm)
  | lui d imm => exact decode_encode_of_encodedAs (encodedAs_lui d imm)
  | addi d a imm => exact decode_encode_of_encodedAs (encodedAs_addi d a imm)
  | add d a b => exact decode_encode_of_encodedAs (encodedAs_add d a b)
  | sub d a b => exact decode_encode_of_encodedAs (encodedAs_sub d a b)
  | ldb d a imm => exact decode_encode_of_encodedAs (encodedAs_ldb d a imm)
  | stb d a imm => exact decode_encode_of_encodedAs (encodedAs_stb d a imm)
  | gadd d a b => exact decode_encode_of_encodedAs (encodedAs_gadd d a b)
  | gmul d a b => exact decode_encode_of_encodedAs (encodedAs_gmul d a b)
  | gdiv d a b => exact decode_encode_of_encodedAs (encodedAs_gdiv d a b)
  | gexp d a => exact decode_encode_of_encodedAs (encodedAs_gexp d a)
  | glog d a => exact decode_encode_of_encodedAs (encodedAs_glog d a)
  | peval d a b c => exact decode_encode_of_encodedAs (encodedAs_peval d a b c)
  | lagr d a b c e => exact decode_encode_of_encodedAs (encodedAs_lagr d a b c e)
  | lbasis d a c => exact decode_encode_of_encodedAs (encodedAs_lbasis d a c)
  | gdot d a b c e => exact decode_encode_of_encodedAs (encodedAs_gdot d a b c e)
  | hpack d a b c => exact decode_encode_of_encodedAs (encodedAs_hpack d a b c)
  | hunpack d a b => exact decode_encode_of_encodedAs (encodedAs_hunpack d a b (wellFormed_hunpack_iff.mp hi))
  | b64e d a b c nopad => exact decode_encode_of_encodedAs (encodedAs_b64e d a b c nopad)
  | b64d d a b c => exact decode_encode_of_encodedAs (encodedAs_b64d d a b c)
  | henc d a b c nopad => exact decode_encode_of_encodedAs (encodedAs_henc d a b c nopad)
  | hdec d a b c => exact decode_encode_of_encodedAs (encodedAs_hdec d a b c)

/-- The decoder reads the four bytes of a word as that word (R61). -/
theorem decodeBytes_bytesLE_append {w : Word} {i : Instr} (h : decode w = .ok i) (rest : List Byte) :
    decodeBytes (bytesLE w ++ rest) = .ok (i, rest) := by
  simp only [bytesLE, List.cons_append, List.nil_append, decodeBytes, wordLE_extractLsb', h]

/-- Settles O2: the word decodes row by row, and its bytes are read back as the word. -/
theorem decodeOfEncode : Obligations.DecodeOfEncode := by
  intro i rest hi
  exact ⟨decode_encode i hi, decodeBytes_bytesLE_append (decode_encode i hi) rest⟩

end Sys2Proof.Proofs
end

section
/-! The mask and match table against the decoder (30_encoding.md R96, R97, R98, R100): a decoded word fits its row, and a
word that fits a row is the word of a well-formed command, so the table tells commands from illegal words. -/

namespace Sys2Proof.Proofs

open Sys2Proof.Machine Sys2Proof.Statements Sys2Proof.Laws

/-! ## A decoded word fits its row -/

/-- The opcode bits of a word. -/
theorem and_opcodeMask (w : Word) : w &&& 0xFF000000 = opcodeField w ++ 0#24 := by
  have hw : opcodeField w ++ w.extractLsb' 0 24 = w :=
    (BitVec.extractLsb'_append_extractLsb'_eq_extractLsb' rfl).trans BitVec.extractLsb'_eq_self
  calc w &&& 0xFF000000
      = (opcodeField w ++ w.extractLsb' 0 24) &&& (BitVec.allOnes 8 ++ 0#24) := by rw [hw]; rfl
    _ = opcodeField w ++ 0#24 := by rw [BitVec.and_append, BitVec.and_allOnes, BitVec.and_zero]

/-- A row's pattern holds of a word with the row's opcode and the zero bits the row demands (R96). -/
theorem and_rowMask {w unused : Word} (hu : w &&& unused = 0) :
    w &&& (0xFF000000 ||| unused) = opcodeField w ++ 0#24 := by
  have hdist : w &&& (0xFF000000 ||| unused) = w &&& 0xFF000000 ||| w &&& unused := by
    ext i hi
    simp only [BitVec.getElem_and, BitVec.getElem_or, Bool.and_or_distrib_left]
  rw [hdist, hu, and_opcodeMask]
  exact BitVec.or_zero

/-- What R96 says of a word and the command it decodes to. -/
def FitsRowOf (w : Word) (i : Instr) : Prop :=
  ∃ r ∈ opcodeTable, r.mnemonic = i.mnemonic ∧ w &&& r.mask = r.value ∧
    (r.mnemonic = "HUNPACK" → fieldD w ≠ fieldB w)

theorem strict_eq_ok_iff {w unused : Word} {i j : Instr} : strict w unused i = .ok j ↔ w &&& unused = 0 ∧ i = j := by
  unfold strict
  by_cases h : w &&& unused = 0
  · rw [if_pos h, Except.ok.injEq, and_iff_right h]
  · rw [if_neg h]
    exact iff_of_false nofun fun hj => h hj.1

/-- Row k of the table, its mask the opcode bits and the decoder's unused bits, fits the words the decoder gives it. -/
theorem fitsRowOf_of_strict {w unused : Word} {i j : Instr} (k : Nat) {r : OpRow} {n : Nat}
    (hop : (opcodeField w).toNat = n) (h : strict w unused i = .ok j) (hr : opcodeTable[k]? = some r)
    (hmask : r.mask = 0xFF000000 ||| unused) (hvalue : r.value = BitVec.ofNat 8 n ++ 0#24)
    (hname : r.mnemonic = i.mnemonic) (hne : r.mnemonic ≠ "HUNPACK" ∨ fieldD w ≠ fieldB w) : FitsRowOf w j := by
  obtain ⟨hu, rfl⟩ := strict_eq_ok_iff.mp h
  refine ⟨r, List.mem_of_getElem? hr, hname, ?_, hne.resolve_left ∘ not_not_intro⟩
  rw [hmask, and_rowMask hu, hvalue, ← hop, BitVec.ofNat_toNat, BitVec.setWidth_eq]

theorem fitsRowOf_of_decode {w : Word} {i : Instr} (h : decode w = .ok i) : FitsRowOf w i := by
  unfold decode at h
  split at h
  case h_1 hop => exact fitsRowOf_of_strict 0 hop h rfl rfl rfl rfl (.inl (by decide))
  case h_2 hop => exact fitsRowOf_of_strict 1 hop h rfl rfl rfl rfl (.inl (by decide))
  case h_3 hop => exact fitsRowOf_of_strict 2 hop h rfl rfl rfl rfl (.inl (by decide))
  case h_4 hop => exact fitsRowOf_of_strict 3 hop h rfl rfl rfl rfl (.inl (by decide))
  case h_5 hop => exact fitsRowOf_of_strict 4 hop h rfl rfl rfl rfl (.inl (by decide))
  case h_6 hop => exact fitsRowOf_of_strict 5 hop h rfl rfl rfl rfl (.inl (by decide))
  case h_7 hop => exact fitsRowOf_of_strict 6 hop h rfl rfl rfl rfl (.inl (by decide))
  case h_8 hop => exact fitsRowOf_of_strict 7 hop h rfl rfl rfl rfl (.inl (by decide))
  case h_9 hop => exact fitsRowOf_of_strict 8 hop h rfl rfl rfl rfl (.inl (by decide))
  case h_10 hop => exact fitsRowOf_of_strict 9 hop h rfl rfl rfl rfl (.inl (by decide))
  case h_11 hop => exact fitsRowOf_of_strict 10 hop h rfl rfl rfl rfl (.inl (by decide))
  case h_12 hop => exact fitsRowOf_of_strict 11 hop h rfl rfl rfl rfl (.inl (by decide))
  case h_13 hop => exact fitsRowOf_of_strict 12 hop h rfl rfl rfl rfl (.inl (by decide))
  case h_14 hop => exact fitsRowOf_of_strict 13 hop h rfl rfl rfl rfl (.inl (by decide))
  case h_15 hop => exact fitsRowOf_of_strict 14 hop h rfl rfl rfl rfl (.inl (by decide))
  case h_16 hop => exact fitsRowOf_of_strict 15 hop h rfl rfl rfl rfl (.inl (by decide))
  case h_17 hop => exact fitsRowOf_of_strict 16 hop h rfl rfl rfl rfl (.inl (by decide))
  case h_18 hop => exact fitsRowOf_of_strict 17 hop h rfl rfl rfl rfl (.inl (by decide))
  case h_19 hop => exact fitsRowOf_of_strict 18 hop h rfl rfl rfl rfl (.inl (by decide))
  case h_20 hop => exact fitsRowOf_of_strict 19 hop h rfl rfl rfl rfl (.inl (by decide))
  case h_21 hop => exact fitsRowOf_of_strict 20 hop h rfl rfl rfl rfl (.inl (by decide))
  case h_22 hop => exact fitsRowOf_of_strict 21 hop h rfl rfl rfl rfl (.inl (by decide))
  case h_23 hop =>
    by_cases hne : fieldD w = fieldB w
    · rw [if_pos hne] at h
      cases h
    · rw [if_neg hne] at h
      exact fitsRowOf_of_strict 22 hop h rfl rfl rfl rfl (.inr hne)
  case h_24 hop => exact fitsRowOf_of_strict 23 hop h rfl rfl rfl rfl (.inl (by decide))
  case h_25 hop => exact fitsRowOf_of_strict 24 hop h rfl rfl rfl rfl (.inl (by decide))
  case h_26 hop => exact fitsRowOf_of_strict 25 hop h rfl rfl rfl rfl (.inl (by decide))
  case h_27 hop => exact fitsRowOf_of_strict 26 hop h rfl rfl rfl rfl (.inl (by decide))
  case h_28 => cases h

/-! ## A word is its fields -/

theorem formatR_fields (w : Word) :
    formatR (opcodeField w) (fieldD w) (fieldA w) (fieldB w) (fieldC w) (fieldE w) (fieldF w) = w := by
  ext i hi
  simp only [formatR, opcodeField, fieldD, fieldA, fieldB, fieldC, fieldE, fieldF,
    ← BitVec.getLsbD_eq_getElem]
  grind

theorem formatI_fields (w : Word) : formatI (opcodeField w) (fieldD w) (fieldA w) (fieldImm w) = w := by
  ext i hi
  simp only [formatI, opcodeField, fieldD, fieldA, fieldImm,
    ← BitVec.getLsbD_eq_getElem]
  grind

/-- A command's field y is the word's field x: it was read from it, or the row's mask m fixes it to the value v. -/
def Determined {n : Nat} (x m v y : BitVec n) : Prop := y = x ∨ (m = BitVec.allOnes n ∧ v = y)

theorem eq_of_determined {n : Nat} {x m v y : BitVec n} (hd : Determined x m v y) (h : x &&& m = v) : y = x := by
  rcases hd with rfl | ⟨rfl, rfl⟩
  · rfl
  · rw [← h, BitVec.and_allOnes]

section
variable {w mask value : Word} {op : BitVec 8} {d a b c e : Reg} {f : BitVec 4} {imm : Imm16}
  (h : w &&& mask = value)
include h

theorem extractLsb'_and_mask (start len : Nat) :
    w.extractLsb' start len &&& mask.extractLsb' start len = value.extractLsb' start len := by
  rw [← h, BitVec.extractLsb'_and]

theorem formatI_eq_of_fits (hop : Determined (opcodeField w) (opcodeField mask) (opcodeField value) op)
    (hd : Determined (fieldD w) (fieldD mask) (fieldD value) d)
    (ha : Determined (fieldA w) (fieldA mask) (fieldA value) a) : formatI op d a (fieldImm w) = w := by
  rw [eq_of_determined hop (extractLsb'_and_mask h _ _), eq_of_determined hd (extractLsb'_and_mask h _ _),
    eq_of_determined ha (extractLsb'_and_mask h _ _), formatI_fields]

theorem formatR_eq_of_fits (hop : Determined (opcodeField w) (opcodeField mask) (opcodeField value) op)
    (hb : Determined (fieldB w) (fieldB mask) (fieldB value) b)
    (hc : Determined (fieldC w) (fieldC mask) (fieldC value) c)
    (he : Determined (fieldE w) (fieldE mask) (fieldE value) e)
    (hf : f = fieldF w ∨ (fieldF mask = BitVec.allOnes 4 ∧ fieldF value = f)) :
    formatR op (fieldD w) (fieldA w) b c e f = w := by
  rw [eq_of_determined hop (extractLsb'_and_mask h _ _), eq_of_determined hb (extractLsb'_and_mask h _ _),
    eq_of_determined hc (extractLsb'_and_mask h _ _), eq_of_determined he (extractLsb'_and_mask h _ _),
    eq_of_determined hf (extractLsb'_and_mask h _ _), formatR_fields]

/-- A flag field whose bits f[3:1] are masked to 0 holds NOPAD alone (R94). -/
theorem flagF_fieldNopad (hm : fieldF mask = 0xE) (hv : fieldF value = 0) : flagF (fieldNopad w) = fieldF w := by
  have hbits : fieldF w &&& 0xE = 0 := by rw [← hm, ← hv]; exact extractLsb'_and_mask h _ _
  have hbit : fieldNopad w = (fieldF w).getLsbD 0 := by simp [fieldNopad, fieldF]
  rw [hbit]
  generalize fieldF w = f at hbits
  revert f
  decide

end

/-! ## A word that fits a row is a command's -/

/-- The word is that of a well-formed command with this mnemonic. -/
def IsWordOf (w : Word) (name : String) : Prop := ∃ i : Instr, i.wellFormed = true ∧ encode i = w ∧ i.mnemonic = name

/-- Every row's words are those of its command, its operands the fields that the mask leaves open. -/
theorem isWordOf_of_fits {w : Word} :
    ∀ r ∈ opcodeTable, w &&& r.mask = r.value → (r.mnemonic = "HUNPACK" → fieldD w ≠ fieldB w) →
      IsWordOf w r.mnemonic := by
  have copied {n : Nat} {x m v : BitVec n} : Determined x m v x := .inl rfl
  simp only [opcodeTable, controlRows, fieldRows, codecRows, List.cons_append, List.nil_append, List.forall_mem_cons,
    List.not_mem_nil, false_imp_iff, implies_true, and_true]
  refine ⟨fun h _ => ⟨.nop, rfl, ?nop, rfl⟩,
    fun h _ => ⟨.halt, rfl, ?halt, rfl⟩,
    fun h _ => ⟨.j (fieldImm w), rfl, ?j, rfl⟩,
    fun h _ => ⟨.bz (fieldA w) (fieldImm w), rfl, ?bz, rfl⟩,
    fun h _ => ⟨.bnz (fieldA w) (fieldImm w), rfl, ?bnz, rfl⟩,
    fun h _ => ⟨.li (fieldD w) (fieldImm w), rfl, ?li, rfl⟩,
    fun h _ => ⟨.lui (fieldD w) (fieldImm w), rfl, ?lui, rfl⟩,
    fun h _ => ⟨.addi (fieldD w) (fieldA w) (fieldImm w), rfl, ?addi, rfl⟩,
    fun h _ => ⟨.add (fieldD w) (fieldA w) (fieldB w), rfl, ?add, rfl⟩,
    fun h _ => ⟨.sub (fieldD w) (fieldA w) (fieldB w), rfl, ?sub, rfl⟩,
    fun h _ => ⟨.ldb (fieldD w) (fieldA w) (fieldImm w), rfl, ?ldb, rfl⟩,
    fun h _ => ⟨.stb (fieldD w) (fieldA w) (fieldImm w), rfl, ?stb, rfl⟩,
    fun h _ => ⟨.gadd (fieldD w) (fieldA w) (fieldB w), rfl, ?gadd, rfl⟩,
    fun h _ => ⟨.gmul (fieldD w) (fieldA w) (fieldB w), rfl, ?gmul, rfl⟩,
    fun h _ => ⟨.gdiv (fieldD w) (fieldA w) (fieldB w), rfl, ?gdiv, rfl⟩,
    fun h _ => ⟨.gexp (fieldD w) (fieldA w), rfl, ?gexp, rfl⟩,
    fun h _ => ⟨.glog (fieldD w) (fieldA w), rfl, ?glog, rfl⟩,
    fun h _ => ⟨.peval (fieldD w) (fieldA w) (fieldB w) (fieldC w), rfl, ?peval, rfl⟩,
    fun h _ => ⟨.lagr (fieldD w) (fieldA w) (fieldB w) (fieldC w) (fieldE w), rfl, ?lagr, rfl⟩,
    fun h _ => ⟨.lbasis (fieldD w) (fieldA w) (fieldC w), rfl, ?lbasis, rfl⟩,
    fun h _ => ⟨.gdot (fieldD w) (fieldA w) (fieldB w) (fieldC w) (fieldE w), rfl, ?gdot, rfl⟩,
    fun h _ => ⟨.hpack (fieldD w) (fieldA w) (fieldB w) (fieldC w), rfl, ?hpack, rfl⟩,
    fun h hne => ⟨.hunpack (fieldD w) (fieldA w) (fieldB w), wellFormed_hunpack_iff.mpr (hne trivial), ?hunpack, rfl⟩,
    fun h _ => ⟨.b64e (fieldD w) (fieldA w) (fieldB w) (fieldC w) (fieldNopad w), rfl, ?b64e, rfl⟩,
    fun h _ => ⟨.b64d (fieldD w) (fieldA w) (fieldB w) (fieldC w), rfl, ?b64d, rfl⟩,
    fun h _ => ⟨.henc (fieldD w) (fieldA w) (fieldB w) (fieldC w) (fieldNopad w), rfl, ?henc, rfl⟩,
    fun h _ => ⟨.hdec (fieldD w) (fieldA w) (fieldB w) (fieldC w), rfl, ?hdec, rfl⟩⟩
  case nop => exact (BitVec.and_allOnes.symm.trans h).symm
  case halt => exact (BitVec.and_allOnes.symm.trans h).symm
  case j => exact formatI_eq_of_fits h (.inr ⟨rfl, rfl⟩) (.inr ⟨rfl, rfl⟩) (.inr ⟨rfl, rfl⟩)
  case bz => exact formatI_eq_of_fits h (.inr ⟨rfl, rfl⟩) (.inr ⟨rfl, rfl⟩) copied
  case bnz => exact formatI_eq_of_fits h (.inr ⟨rfl, rfl⟩) (.inr ⟨rfl, rfl⟩) copied
  case li => exact formatI_eq_of_fits h (.inr ⟨rfl, rfl⟩) copied (.inr ⟨rfl, rfl⟩)
  case lui => exact formatI_eq_of_fits h (.inr ⟨rfl, rfl⟩) copied (.inr ⟨rfl, rfl⟩)
  case addi => exact formatI_eq_of_fits h (.inr ⟨rfl, rfl⟩) copied copied
  case add => exact formatR_eq_of_fits h (.inr ⟨rfl, rfl⟩) copied (.inr ⟨rfl, rfl⟩) (.inr ⟨rfl, rfl⟩) (.inr ⟨rfl, rfl⟩)
  case sub => exact formatR_eq_of_fits h (.inr ⟨rfl, rfl⟩) copied (.inr ⟨rfl, rfl⟩) (.inr ⟨rfl, rfl⟩) (.inr ⟨rfl, rfl⟩)
  case ldb => exact formatI_eq_of_fits h (.inr ⟨rfl, rfl⟩) copied copied
  case stb => exact formatI_eq_of_fits h (.inr ⟨rfl, rfl⟩) copied copied
  case gadd => exact formatR_eq_of_fits h (.inr ⟨rfl, rfl⟩) copied (.inr ⟨rfl, rfl⟩) (.inr ⟨rfl, rfl⟩) (.inr ⟨rfl, rfl⟩)
  case gmul => exact formatR_eq_of_fits h (.inr ⟨rfl, rfl⟩) copied (.inr ⟨rfl, rfl⟩) (.inr ⟨rfl, rfl⟩) (.inr ⟨rfl, rfl⟩)
  case gdiv => exact formatR_eq_of_fits h (.inr ⟨rfl, rfl⟩) copied (.inr ⟨rfl, rfl⟩) (.inr ⟨rfl, rfl⟩) (.inr ⟨rfl, rfl⟩)
  case gexp => exact formatR_eq_of_fits h (.inr ⟨rfl, rfl⟩) (.inr ⟨rfl, rfl⟩) (.inr ⟨rfl, rfl⟩) (.inr ⟨rfl, rfl⟩) (.inr ⟨rfl, rfl⟩)
  case glog => exact formatR_eq_of_fits h (.inr ⟨rfl, rfl⟩) (.inr ⟨rfl, rfl⟩) (.inr ⟨rfl, rfl⟩) (.inr ⟨rfl, rfl⟩) (.inr ⟨rfl, rfl⟩)
  case peval => exact formatR_eq_of_fits h (.inr ⟨rfl, rfl⟩) copied copied (.inr ⟨rfl, rfl⟩) (.inr ⟨rfl, rfl⟩)
  case lagr => exact formatR_eq_of_fits h (.inr ⟨rfl, rfl⟩) copied copied copied (.inr ⟨rfl, rfl⟩)
  case lbasis => exact formatR_eq_of_fits h (.inr ⟨rfl, rfl⟩) (.inr ⟨rfl, rfl⟩) copied (.inr ⟨rfl, rfl⟩) (.inr ⟨rfl, rfl⟩)
  case gdot => exact formatR_eq_of_fits h (.inr ⟨rfl, rfl⟩) copied copied copied (.inr ⟨rfl, rfl⟩)
  case hpack => exact formatR_eq_of_fits h (.inr ⟨rfl, rfl⟩) copied copied (.inr ⟨rfl, rfl⟩) (.inr ⟨rfl, rfl⟩)
  case hunpack => exact formatR_eq_of_fits h (.inr ⟨rfl, rfl⟩) copied (.inr ⟨rfl, rfl⟩) (.inr ⟨rfl, rfl⟩) (.inr ⟨rfl, rfl⟩)
  case b64e => exact formatR_eq_of_fits h (.inr ⟨rfl, rfl⟩) copied copied (.inr ⟨rfl, rfl⟩) (.inl (flagF_fieldNopad h rfl rfl))
  case b64d => exact formatR_eq_of_fits h (.inr ⟨rfl, rfl⟩) copied copied (.inr ⟨rfl, rfl⟩) (.inr ⟨rfl, rfl⟩)
  case henc => exact formatR_eq_of_fits h (.inr ⟨rfl, rfl⟩) copied copied (.inr ⟨rfl, rfl⟩) (.inl (flagF_fieldNopad h rfl rfl))
  case hdec => exact formatR_eq_of_fits h (.inr ⟨rfl, rfl⟩) copied copied (.inr ⟨rfl, rfl⟩) (.inr ⟨rfl, rfl⟩)

theorem encode_of_decode {w : Word} {i : Instr} (h : decode w = .ok i) : i.wellFormed = true ∧ encode i = w := by
  obtain ⟨r, hr, -, hw, hne⟩ := fitsRowOf_of_decode h
  obtain ⟨j, hj, he, -⟩ := isWordOf_of_fits r hr hw hne
  have hij : i = j := Except.ok.inj (h.symm.trans (he ▸ decode_encode j hj))
  exact hij ▸ ⟨hj, he⟩

theorem nodup_opcodes : (opcodeTable.map (fun r => opcodeField r.value)).Nodup := by decide

/-- Settles O3: what a word decodes to encodes to it, and every command with that word is what it decodes to. -/
theorem everyWordIsOneCommandOrIllegal : Obligations.EveryWordIsOneCommandOrIllegal := by
  refine ⟨fun w => ?_, nodup_opcodes⟩
  have hdecode : ∀ j : Instr, j.wellFormed = true → encode j = w → decode w = .ok j :=
    fun j hj he => he ▸ decode_encode j hj
  cases hd : decode w with
  | error e => exact .inr ⟨e, rfl, fun j hj he => nomatch hd.symm.trans (hdecode j hj he)⟩
  | ok i =>
    obtain ⟨hi, he⟩ := encode_of_decode hd
    exact .inl ⟨i, rfl, hi, he, fun j hj hej => Except.ok.inj ((hdecode j hj hej).symm.trans hd)⟩

/-- Settles O4: a decoded word fits its row, and a word that fits a row is a command's word, which decodes to it. -/
theorem decodeAgreesWithTheMasks : Obligations.DecodeAgreesWithTheMasks := by
  refine ⟨fun w i hd => fitsRowOf_of_decode hd, fun w r hr hw hne => ?_⟩
  obtain ⟨i, hi, he, hname⟩ := isWordOf_of_fits r hr hw hne
  exact ⟨i, he ▸ decode_encode i hi, hname⟩

/-- Settles O1: each of the eight words, decoded. -/
theorem specWordsDecode : Obligations.SpecWordsDecode := by
  unfold Obligations.SpecWordsDecode
  decide

end Sys2Proof.Proofs
end

section
/-! The engine's turn (60_exceptions.md R280, R281): which state the engine finds, what its step can do to it, and the
order of its errors. -/

namespace Sys2Proof.Proofs

open Sys2Proof.Machine Sys2Proof.Statements Sys2Proof.Laws

/-! ## Whose turn it is -/

theorem step_of_engineTurn {s u : State} (h : EngineTurn s u) : step s = engineStep u := by
  rcases h with ⟨hturns, rfl⟩ | ⟨rest, hturns, rfl⟩
  · exact step_of_no_turns hturns
  · exact step_of_engine_turn hturns

/-- A step is an engine step, a host access, a reset or power-on, its turn used up. -/
theorem step_cases (s : State) :
    (∃ u, EngineTurn s u ∧ step s = engineStep u) ∨
    (∃ acc rest, s.turns = .host acc :: rest ∧ step s = .next (hostAccess acc { s with turns := rest })) ∨
    (∃ rest, s.turns = .reset :: rest ∧ step s = .next (resetInput { s with turns := rest })) ∨
    (∃ rest, s.turns = .powerOn :: rest ∧ step s = .next (powerOn { s with turns := rest })) := by
  match ht : s.turns with
  | [] => exact .inl ⟨s, .inl ⟨ht, rfl⟩, step_of_no_turns ht⟩
  | .engine :: rest => exact .inl ⟨_, .inr ⟨rest, ht, rfl⟩, step_of_engine_turn ht⟩
  | .host acc :: rest => exact .inr (.inl ⟨acc, rest, rfl, by simp only [step, ht]⟩)
  | .reset :: rest => exact .inr (.inr (.inl ⟨rest, rfl, by simp only [step, ht]⟩))
  | .powerOn :: rest => exact .inr (.inr (.inr ⟨rest, rfl, by simp only [step, ht]⟩))

/-! ## One check after another (R281) -/

theorem engineStep_of_idle {u : State} (hb : u.busy = false) : engineStep u = .next u := by
  simp only [engineStep, hb, Bool.not_false, if_true]

section
variable {u : State} (hb : u.busy = true)
include hb

theorem engineStep_of_abort (ha : u.abortReq = true) : engineStep u = raise .aborted 0 u := by
  simp only [engineStep, hb, ha, Bool.not_true, Bool.false_eq_true, if_false, if_true]
  rfl

variable (ha : u.abortReq = false)
include ha

theorem engineStep_of_misaligned (h4 : u.pc.toNat % 4 ≠ 0) : engineStep u = raise .fetchMisaligned u.pc u := by
  simp only [engineStep, hb, ha, Bool.not_true, Bool.false_eq_true, if_false, if_pos h4]

variable (h4 : u.pc.toNat % 4 = 0)
include h4

theorem engineStep_of_outside (hr : Config.lmemSize - 4 < u.pc.toNat) : engineStep u = raise .fetchRange u.pc u := by
  simp only [engineStep, hb, ha, Bool.not_true, Bool.false_eq_true, if_false, if_neg (not_not_intro h4), if_pos hr]

theorem engineStep_of_fetchable (hr : u.pc.toNat ≤ Config.lmemSize - 4) :
    engineStep u = runWord (wordAt u u.pc.toNat) u := by
  simp only [engineStep, hb, ha, Bool.not_true, Bool.false_eq_true, if_false, if_neg (not_not_intro h4),
    if_neg hr.not_gt]
  rfl

end

/-- Settles O6: each clause is the check that its hypotheses reach. -/
theorem engineErrorsInOrder : Obligations.EngineErrorsInOrder := by
  intro s u hu hb
  rw [step_of_engineTurn hu]
  exact ⟨fun ha => raises_of_eq (engineStep_of_abort hb ha),
    fun ha h4 => raises_of_eq (engineStep_of_misaligned hb ha h4),
    fun ha h4 hr => raises_of_eq (engineStep_of_outside hb ha h4 hr),
    fun ha h4 hr _ hd => raises_of_eq ((engineStep_of_fetchable hb ha h4 hr).trans (runWord_of_error hd)),
    fun ha h4 hr _ hd => (engineStep_of_fetchable hb ha h4 hr).trans (runWord_of_ok hd)⟩

/-- Settles O5: with every check passed the engine runs the decoded command, and a host turn is its access. -/
theorem stepRunsDecodedCommand : Obligations.StepRunsDecodedCommand := by
  refine ⟨fun s i hb ha h4 hr hd => ⟨fun ht => ?alone, fun rest ht => ?turn⟩, fun s acc rest ht => ?host⟩
  case alone =>
    rw [step_of_no_turns ht, engineStep_of_fetchable hb ha h4 hr]
    exact runWord_of_ok hd
  case turn =>
    rw [step_of_engine_turn ht, engineStep_of_fetchable (u := { s with turns := rest }) hb ha h4 hr]
    exact runWord_of_ok hd
  case host => simp only [step, ht]

/-- Settles O18: an idle engine's step is the state it finds. -/
theorem idleEngineTurnChangesNothing : Obligations.IdleEngineTurnChangesNothing := by
  intro s hb
  exact ⟨fun ht => (step_of_no_turns ht).trans (engineStep_of_idle hb),
    fun rest ht => (step_of_engine_turn ht).trans (engineStep_of_idle hb)⟩

/-! ## Illegal words (R97, R98) -/

/-- The rows' masks hold the whole opcode, so a word that fits a row has its opcode. -/
theorem opcodeField_of_fits {w : Word} {r : OpRow} (hr : r ∈ opcodeTable) (hw : w &&& r.mask = r.value) :
    opcodeField w = opcodeField r.value := by
  have hmask : ∀ r ∈ opcodeTable, opcodeField r.mask = BitVec.allOnes 8 := by decide
  have hop : opcodeField w &&& opcodeField r.mask = opcodeField r.value := extractLsb'_and_mask hw 24 8
  rw [← hop, hmask r hr, BitVec.and_allOnes]

/-- The opcode of a row is that of no other. -/
theorem row_eq_of_opcodeField_eq {r q : OpRow} (hr : r ∈ opcodeTable) (hq : q ∈ opcodeTable)
    (h : opcodeField r.value = opcodeField q.value) : r = q :=
  List.inj_on_of_nodup_map nodup_opcodes hr hq h

/-- What a decoded word's row says of its opcode: the row is the one with that opcode. -/
theorem row_of_decode {w : Word} {i : Instr} (h : decode w = .ok i) :
    ∃ r ∈ opcodeTable, opcodeField w = opcodeField r.value ∧ w &&& r.mask = r.value ∧
      (r.mnemonic = "HUNPACK" → fieldD w ≠ fieldB w) := by
  obtain ⟨r, hr, -, hw, hne⟩ := fitsRowOf_of_decode h
  exact ⟨r, hr, opcodeField_of_fits hr hw, hw, hne⟩

/-- Settles O7: a word that decoded would fit the one row of its opcode, which each of the three causes denies. -/
theorem illegalWordsRaiseIllegalCmd : Obligations.IllegalWordsRaiseIllegalCmd := by
  intro s u hu hb ha h4 hr
  generalize hw : wordAt u u.pc.toNat = w
  have raises (hnot : ∀ i, decode w ≠ .ok i) : Raises (step s) u .illegalCmd w := by
    rw [step_of_engineTurn hu, engineStep_of_fetchable hb ha h4 hr, hw]
    cases hd : decode w with
    | error e => exact raises_of_eq (runWord_of_error hd)
    | ok i => exact absurd hd (hnot i)
  refine ⟨fun hno => raises fun i hd => ?unassigned, fun r hrow hop hmask => raises fun i hd => ?unused,
    fun hop hsame => raises fun i hd => ?sameRegister⟩
  all_goals obtain ⟨q, hq, hopq, hfits, hne⟩ := row_of_decode hd
  case unassigned => exact hno q hq hopq
  case unused =>
    obtain rfl := row_eq_of_opcodeField_eq hrow hq (hop.symm.trans hopq)
    exact hmask hfits
  case sameRegister =>
    have hunpack : (⟨"HUNPACK", 0xFF000FFF, 0x51000000⟩ : OpRow) ∈ opcodeTable := by decide
    obtain rfl := row_eq_of_opcodeField_eq hunpack hq (hop.symm.trans hopq)
    exact hne rfl hsame

/-! ## A running engine's step -/

/-- A running engine with no abort pending ends its step as a command does: it halts, raises, completes or branches. -/
theorem engineStep_ends {u : State} (hb : u.busy = true) (ha : u.abortReq = false) :
    engineStep u = .next (stop (finish (u.pc + 4) u)) ∨ Ends u (engineStep u) := by
  by_cases h4 : u.pc.toNat % 4 = 0
  · rcases Nat.lt_or_ge (Config.lmemSize - 4) u.pc.toNat with hr | hr
    · rw [engineStep_of_outside hb ha h4 hr]
      exact .inr (.error (by decide))
    · rw [engineStep_of_fetchable hb ha h4 hr]
      cases hd : decode (wordAt u u.pc.toNat) with
      | error e =>
        rw [runWord_of_error hd]
        exact .inr (.error (by decide))
      | ok i =>
        rw [runWord_of_ok hd]
        exact (exec_cases i u).imp And.right And.right
  · rw [engineStep_of_misaligned hb ha h4]
    exact .inr (.error (by decide))

theorem next_of_ends {s : State} {o : Result} (h : Ends s o) : ∃ t, o = .next t := by
  cases h <;> exact ⟨_, rfl⟩

/-- Settles O8: a command halts or ends, an engine step is idle, aborted or ends likewise, and the other turns always
answer. -/
theorem everyStepAnswersANextState : Obligations.EveryStepAnswersANextState := by
  refine ⟨fun s => ?step, fun i s => ?exec⟩
  case exec =>
    rcases exec_cases i s with ⟨-, hhalt⟩ | ⟨-, hends⟩
    · exact ⟨_, hhalt⟩
    · exact next_of_ends hends
  case step =>
    rcases step_cases s with ⟨u, -, hstep⟩ | ⟨acc, rest, -, hstep⟩ | ⟨rest, -, hstep⟩ | ⟨rest, -, hstep⟩
    case inl =>
      rw [hstep]
      cases hb : u.busy with
      | false => exact ⟨u, engineStep_of_idle hb⟩
      | true =>
        cases ha : u.abortReq with
        | true => exact ⟨_, engineStep_of_abort hb ha⟩
        | false => exact (engineStep_ends hb ha).elim (fun h => ⟨_, h⟩) next_of_ends
    all_goals exact ⟨_, hstep⟩

end Sys2Proof.Proofs
end

section
/-! The invariant of the machine (10_state.md R35, R45; 60_exceptions.md R276, R282, R290, R292, R300): each named update
keeps it, so every step does, and the step that ends a run says how it ended. -/

namespace Sys2Proof.Proofs

open Sys2Proof.Machine Sys2Proof.Statements Sys2Proof.Laws

/-! ## What a host access can do -/

/-- A host access is refused by the bus, answered as a read, dropped, or an allowed write to its target. -/
theorem hostAccess_cases (acc : Access) (s : State) :
    hostAccess acc s = respond .busError s ∨
    (∃ v, hostAccess acc s = respond (.data v) { s with freeDraws := s.freeDraws + 1 }) ∨
    hostAccess acc s = respond .written (dropAccess s) ∨
    (∃ t v, busTarget acc.offset.toNat acc.width = some t ∧ acc.op = .write v ∧
      hostAccess acc s = respond .written (writeTarget t acc.width v s)) := by
  cases ht : busTarget acc.offset.toNat acc.width with
  | none => exact .inl (hostAccess_busError ht)
  | some t =>
    cases ho : acc.op with
    | read =>
      cases hf : s.busy && readsFreeWhenBusy t with
      | true => exact .inr (.inl ⟨_, hostAccess_read_free ht ho hf⟩)
      | false => exact .inr (.inl ⟨_, hostAccess_read ht ho hf⟩)
    | write v =>
      cases hd : s.busy && dropsWhenBusy t with
      | true => exact .inr (.inr (.inl (hostAccess_write_dropped ht ho hd)))
      | false => exact .inr (.inr (.inr ⟨t, v, rfl, rfl, hostAccess_write ht ho hd⟩))

/-- A choice between two values that are not `z` is not `z`. -/
theorem ite_ne_of_ne {α : Sort*} {p : Prop} [Decidable p] {x y z : α} (hx : x ≠ z) (hy : y ≠ z) :
    (if p then x else y) ≠ z := by
  by_cases h : p
  · rwa [if_pos h]
  · rwa [if_neg h]

/-- No register offset reaches LMEM (R29). -/
theorem registerAt_ne_lmem (off a : Nat) : registerAt off ≠ some (.lmem a) := by
  unfold registerAt
  iterate 10 refine ite_ne_of_ne nofun ?_
  exact nofun

/-- CTRL stands at 0x004 only (R29). -/
theorem eq_of_registerAt_ctrl {off : Nat} (h : registerAt off = some .ctrl) : off = 0x004 := by
  by_contra hne
  refine absurd h ?_
  rw [registerAt, if_neg hne]
  iterate 9 refine ite_ne_of_ne nofun ?_
  exact nofun

/-- The whole of a window access is in LMEM, because LMEM's size is a multiple of every width. -/
theorem add_widthBytes_le_of_busTarget {off a : Nat} {w : Width} (h : busTarget off w = some (.lmem a)) :
    a + widthBytes w ≤ Config.lmemSize := by
  have hsize : Config.lmemSize = 1048576 := rfl
  have hbase : windowBase = 0x100000 := rfl
  rw [busTarget] at h
  split_ifs at h with hlow hreg hin
  · exact absurd h (registerAt_ne_lmem off a)
  · have ha : off - windowBase = a := Target.lmem.inj (Option.some.inj h)
    obtain ⟨hlt, halign⟩ := hin
    cases w <;> simp only [widthBytes] at halign ⊢ <;> omega

/-! ## Each update keeps the invariant

The invariant reads BUSY, DONE, ERR, ERRCODE, ABORTREQ and LMEM only, so an update of other fields keeps it by
unfolding. -/

section
variable {s : State} (h : Sound s)
include h

theorem sound_takeError (hb : s.busy = true) {e : ErrCode} (he : e ≠ .none) (info : Word) :
    Sound (takeError e info s) := by
  obtain ⟨⟨hbusy, -⟩, -, -, hmem⟩ := h
  refine ⟨⟨nofun, fun hd => ?_⟩, ⟨nofun, fun hn => absurd hn he⟩, nofun, hmem⟩
  rw [takeError_done, (hbusy hb).1] at hd
  cases hd

theorem sound_stop (hb : s.busy = true) : Sound (stop s) := by
  obtain ⟨⟨hbusy, -⟩, hcode, -, hmem⟩ := h
  exact ⟨⟨nofun, fun _ => (hbusy hb).2⟩, hcode, nofun, hmem⟩

theorem sound_start : Sound (start s) := by
  obtain ⟨-, -, -, hmem⟩ := h
  exact ⟨⟨fun _ => ⟨rfl, rfl⟩, nofun⟩, ⟨fun _ => rfl, fun _ => rfl⟩, nofun, hmem⟩

theorem sound_writeStatus (v : Word) : Sound (writeStatus v s) := by
  obtain ⟨⟨hbusy, hdone⟩, hcode, habort, hmem⟩ := h
  refine ⟨⟨fun hb => ?_, fun hd => ?_⟩, ?_, habort, hmem⟩
  · obtain ⟨hd, he⟩ := hbusy hb
    rw [writeStatus_done, writeStatus_err, hd, he]
    exact ⟨rfl, rfl⟩
  · rw [writeStatus_err, hdone (Bool.and_elim_left hd), Bool.false_and]
  · rw [ErrCodeAgrees, writeStatus_err, writeStatus_errCode]
    cases v.getLsbD 2
    · rw [Bool.not_false, Bool.and_true]
      exact hcode
    · rw [Bool.not_true, Bool.and_false]
      exact ⟨fun _ => rfl, fun _ => rfl⟩

theorem sound_writeCtrl (v : Word) : Sound (writeCtrl v s) := by
  obtain ⟨hflags, hcode, habort, hmem⟩ := id h
  cases hb : s.busy with
  | true =>
    rw [writeCtrl_of_busy hb]
    exact ⟨hflags, hcode, fun _ => hb, hmem⟩
  | false =>
    cases hv : v.getLsbD 0 with
    | true => rw [writeCtrl_of_idle_of_start hb hv]; exact sound_start h
    | false => rw [writeCtrl_of_idle_of_not_start hb hv]; exact h

theorem sound_writeBytes {a : Nat} {bs : List Byte} (hr : bs = [] ∨ a + bs.length ≤ Config.lmemSize) :
    Sound (writeBytes s a bs) := by
  obtain ⟨hflags, hcode, habort, hwf, hin⟩ := h
  exact ⟨hflags, hcode, habort, wf_writeBytes a bs hwf, inside_writeBytes hin hr⟩

theorem sound_finish_of_commits {u : State} (hu : Commits s u) (next : Word) : Sound (finish next u) := by
  obtain ⟨hflags, hcode, habort, hwf, hin⟩ := h
  obtain ⟨hrest, hwf', hin'⟩ := hu
  rw [hrest]
  exact ⟨hflags, hcode, habort, hwf' hwf, hin' hin⟩

theorem sound_resetInput : Sound (resetInput s) := by
  obtain ⟨-, -, -, hmem⟩ := h
  refine ⟨⟨nofun, nofun⟩, ⟨fun _ => rfl, fun _ => rfl⟩, nofun, ?_⟩
  cases hb : s.busy <;> simp only [LmemSound, resetInput, hb]
  · exact hmem
  · exact ⟨.nil, nofun⟩

theorem sound_writeTarget {off : Nat} {t : Target} {w : Width} (ht : busTarget off w = some t) (v : Word) :
    Sound (writeTarget t w v s) := by
  cases t with
  | ctrl => exact sound_writeCtrl h v
  | status => exact sound_writeStatus h v
  | lmem a =>
    refine sound_writeBytes h (.inr ?_)
    rw [length_take_bytesLE]
    exact add_widthBytes_le_of_busTarget ht
  | id | irqen | pc | errPC | errInfo | cmdCnt | lmemSz | gpr => exact h

theorem sound_hostAccess (acc : Access) : Sound (hostAccess acc s) := by
  rcases hostAccess_cases acc s with he | ⟨v, he⟩ | he | ⟨t, v, ht, -, he⟩ <;> rw [he]
  · exact h
  · exact h
  · exact h
  · exact sound_writeTarget h ht v

theorem sound_of_ends {o : Result} {t : State} (hb : s.busy = true) (ho : Ends s o) (ht : o = .next t) : Sound t := by
  cases ho with
  | raised e info he => cases ht; exact sound_takeError h hb he.1 info
  | completed u hu => cases ht; exact sound_finish_of_commits h hu _
  | branched imm => cases ht; exact h

theorem sound_engineStep {t : State} (ht : engineStep s = .next t) : Sound t := by
  cases hb : s.busy with
  | false => cases (engineStep_of_idle hb).symm.trans ht; exact h
  | true =>
    cases ha : s.abortReq with
    | true => cases (engineStep_of_abort hb ha).symm.trans ht; exact sound_takeError h hb (by decide) 0
    | false =>
      rcases engineStep_ends hb ha with hhalt | hends
      · cases hhalt.symm.trans ht; exact sound_stop (s := finish (s.pc + 4) s) h hb
      · exact sound_of_ends h hb hends ht

end

theorem sound_powerOn (s : State) : Sound (powerOn s) :=
  ⟨⟨nofun, nofun⟩, ⟨fun _ => rfl, fun _ => rfl⟩, nofun, .nil, nofun⟩

/-- The engine finds the invariant as the step does: only a turn is used up. -/
theorem sound_of_engineTurn {s u : State} (hu : EngineTurn s u) (h : Sound s) : Sound u := by
  rcases hu with ⟨-, rfl⟩ | ⟨rest, -, rfl⟩ <;> exact h

/-- Settles O9: the engine's step, a host access, a reset and power-on each keep the invariant. -/
theorem everyStepKeepsTheInvariant : Obligations.EveryStepKeepsTheInvariant := by
  intro s t h ht
  rcases step_cases s with ⟨u, hu, hstep⟩ | ⟨acc, rest, -, hstep⟩ | ⟨rest, -, hstep⟩ | ⟨rest, -, hstep⟩
  case inl => exact sound_engineStep (sound_of_engineTurn hu h) (hstep.symm.trans ht)
  all_goals cases hstep.symm.trans ht
  · exact sound_hostAccess (s := { s with turns := rest }) h acc
  · exact sound_resetInput (s := { s with turns := rest }) h
  · exact sound_powerOn _

/-- Settles O10: no flag is set, no error is recorded and LMEM lists nothing. -/
theorem resetMeetsTheInvariant : Obligations.ResetMeetsTheInvariant :=
  ⟨⟨nofun, nofun⟩, ⟨fun _ => rfl, fun _ => rfl⟩, nofun, .nil, nofun⟩

/-! ## How a run ends (R300) -/

/-- The codes a command or a fetch can raise are 0x01 to 0x0D (R274). -/
theorem errCodeByte_range {e : ErrCode} (h : e ≠ .none ∧ e ≠ .aborted) :
    0x01 ≤ (errCodeByte e).toNat ∧ (errCodeByte e).toNat ≤ 0x0D := by
  revert h
  cases e <;> decide

/-- Settles O16: an abort is taken; else the step halts or raises, and one that completes or branches stays busy. -/
theorem runsEndHaltedFaultedOrAborted : Obligations.RunsEndHaltedFaultedOrAborted := by
  intro s u t hu h hb ht hidle
  rw [step_of_engineTurn hu] at ht
  obtain ⟨⟨hbusy, -⟩, hcode, -, -⟩ := h
  obtain ⟨hdone, herr⟩ := hbusy hb
  cases ha : u.abortReq with
  | true =>
    cases (engineStep_of_abort hb ha).symm.trans ht
    exact .inr (.inr ⟨rfl, hdone, rfl, rfl⟩)
  | false =>
    rcases engineStep_ends hb ha with hhalt | hends
    · cases hhalt.symm.trans ht
      refine .inl ⟨rfl, herr, ?_⟩
      rw [stop_errCode, finish_errCode, hcode.mp herr, errCodeByte]
    · generalize engineStep u = o at hends ht
      cases hends with
      | raised e info he =>
        cases ht
        exact .inr (.inl ⟨rfl, hdone, rfl, errCodeByte_range he⟩)
      | completed v hv =>
        cases ht
        rw [finish_busy, hv.rest, hb] at hidle
        cases hidle
      | branched imm =>
        cases ht
        rw [finish_busy, hb] at hidle
        cases hidle

/-! ## What wakes an idle engine (R26, R313) -/

/-- Of all targets only CTRL lets a write set BUSY, and only with START. -/
theorem ctrl_of_busy_writeTarget {t : Target} {w : Width} {v : Word} {s : State} (hb : s.busy = false)
    (h : (writeTarget t w v s).busy = true) : t = .ctrl ∧ v.getLsbD 0 = true := by
  cases t with
  | ctrl =>
    refine ⟨rfl, Bool.not_eq_false _ ▸ fun hv => ?_⟩
    rw [writeTarget, writeCtrl_of_idle_of_not_start hb hv, hb] at h
    cases h
  | id | status | irqen | pc | errPC | errInfo | cmdCnt | lmemSz | gpr | lmem => exact absurd h (hb ▸ Bool.false_ne_true)

/-- CTRL is reached by 32-bit accesses at 0x004 only (R29, R30). -/
theorem eq_regWrite_of_busTarget_ctrl {acc : Access} {v : Word} (h : busTarget acc.offset.toNat acc.width = some .ctrl)
    (hop : acc.op = .write v) : acc = regWrite 0x004 v := by
  obtain ⟨off, w, op⟩ := acc
  obtain rfl : op = .write v := hop
  rw [busTarget] at h
  split_ifs at h with hlow hreg
  · obtain rfl : w = .word := hreg.1
    obtain rfl : off = BitVec.ofNat 21 0x004 := BitVec.eq_of_toNat_eq (eq_of_registerAt_ctrl h)
    rfl
  · exact nomatch Option.some.inj h

/-- Settles O17: an idle engine's own step, a reset and power-on leave it idle, and so does every access but START. -/
theorem onlyStartWakesTheEngine : Obligations.OnlyStartWakesTheEngine := by
  intro s t hb ht hwake
  rcases step_cases s with ⟨u, hu, hstep⟩ | ⟨acc, rest, hturns, hstep⟩ | ⟨rest, -, hstep⟩ | ⟨rest, -, hstep⟩
  case inl =>
    have hidle : u.busy = false := by rcases hu with ⟨-, rfl⟩ | ⟨rest, -, rfl⟩ <;> exact hb
    cases (engineStep_of_idle hidle).symm.trans (hstep.symm.trans ht)
    rw [hidle] at hwake
    cases hwake
  all_goals cases hstep.symm.trans ht
  case inr.inl =>
    rcases hostAccess_cases acc { s with turns := rest } with he | ⟨v, he⟩ | he | ⟨target, v, htarget, hop, he⟩ <;>
      rw [he, respond_busy] at hwake
    case inr.inr.inr =>
      obtain ⟨rfl, hstart⟩ := ctrl_of_busy_writeTarget (s := { s with turns := rest }) hb hwake
      exact ⟨v, rest, eq_regWrite_of_busTarget_ctrl htarget hop ▸ hturns, hstart⟩
    all_goals cases hb.symm.trans hwake
  all_goals cases hwake

end Sys2Proof.Proofs
end

section
/-! The frame of all commands (10_state.md R23, R25; 30_encoding.md R95; 44_control.md R231): every command other than
HALT raises, or commits to its destination registers, its store range and its next address. -/

namespace Sys2Proof.Proofs

open Sys2Proof.Machine Sys2Proof.Statements Sys2Proof.Laws

/-- How command `i` ends in `s` if it is not HALT: by an error entry, or by a commit inside its frame. -/
inductive EndsInFrame (i : Instr) (s : State) : Result → Prop where
  | raised (e : ErrCode) (info : Word) : EndsInFrame i s (raise e info s)
  | committed (writes : List (Reg × Word)) (bs : List Byte) (hw : writes.map Prod.fst = destRegs i)
      (hb : bs.length ≤ (storeRange i s).2) :
      EndsInFrame i s (.next (commit s writes (storeRange i s).1 bs (nextPc i s)))

section
variable {i : Instr} {s : State}

theorem EndsInFrame.setReg {d : Reg} {v : Word} (hd : destRegs i = [d]) (hp : nextPc i s = s.pc + 4) :
    EndsInFrame i s (complete (setReg s d v)) := by
  have h := EndsInFrame.committed (i := i) (s := s) [(d, v)] [] hd.symm (Nat.zero_le _)
  rwa [hp] at h

theorem EndsInFrame.setFieldReg {d : Reg} {b : Byte} (hd : destRegs i = [d]) (hp : nextPc i s = s.pc + 4) :
    EndsInFrame i s (complete (setFieldReg s d b)) := .setReg hd hp

theorem EndsInFrame.finish {next : Word} (hd : destRegs i = []) (hp : nextPc i s = next) :
    EndsInFrame i s (.next (finish next s)) := by
  have h := EndsInFrame.committed (i := i) (s := s) [] [] hd.symm (Nat.zero_le _)
  rwa [hp] at h

theorem EndsInFrame.store {a : Nat} {bs : List Byte} (hd : destRegs i = []) (hp : nextPc i s = s.pc + 4)
    (hr : storeRange i s = (a, bs.length)) : EndsInFrame i s (complete (writeBytes s a bs)) := by
  have h := EndsInFrame.committed (i := i) (s := s) [] bs hd.symm (by rw [hr])
  rwa [hp, hr] at h

theorem EndsInFrame.storeSetReg {a : Nat} {bs : List Byte} {c : Reg} {v : Word} (hd : destRegs i = [c])
    (hp : nextPc i s = s.pc + 4) (hr : storeRange i s = (a, bs.length)) :
    EndsInFrame i s (complete (Machine.setReg (writeBytes s a bs) c v)) := by
  have h := EndsInFrame.committed (i := i) (s := s) [(c, v)] bs hd.symm (by rw [hr])
  rwa [hp, hr] at h

theorem EndsInFrame.storeResult {dst : Word} {c : Reg} {out : List Byte} (hd : destRegs i = [c])
    (hp : nextPc i s = s.pc + 4) (hr : storeRange i s = (dst.toNat, out.length)) :
    EndsInFrame i s (Machine.storeResult dst c out s) := by
  unfold Machine.storeResult
  split
  · exact .raised _ _
  · exact .storeSetReg hd hp hr

end

/-- A branch ends at its target or at the next command. -/
theorem endsInFrame_branchIf {i : Instr} {s : State} {taken : Bool} {imm : Imm16} (hd : destRegs i = [])
    (hp : nextPc i s = if taken then branchTarget s.pc imm else s.pc + 4) :
    EndsInFrame i s (branchIf taken imm s) := .finish hd hp

/-- Every command other than HALT ends in its frame. -/
theorem exec_endsInFrame (i : Instr) (s : State) (hi : i ≠ .halt) : EndsInFrame i s (exec i s) := by
  cases i with
  | nop => exact .finish rfl rfl
  | halt => exact absurd rfl hi
  | j imm => exact .finish rfl rfl
  | bz a imm => exact endsInFrame_branchIf rfl (if_congr beq_iff_eq.symm rfl rfl)
  | bnz a imm => exact endsInFrame_branchIf rfl (by simp only [nextPc, bne_iff_ne, ne_eq, ite_not]; rfl)
  | li d imm => exact .setReg rfl rfl
  | lui d imm => exact .setReg rfl rfl
  | addi d a imm => exact .setReg rfl rfl
  | add d a b => exact .setReg rfl rfl
  | sub d a b => exact .setReg rfl rfl
  | ldb d a imm =>
    simp only [exec, execLdb]
    split
    · exact .raised _ _
    · exact .setReg rfl rfl
  | stb d a imm =>
    simp only [exec, execStb]
    split
    · exact .raised _ _
    · exact .store rfl rfl rfl
  | gadd d a b => exact .setFieldReg rfl rfl
  | gmul d a b => exact .setFieldReg rfl rfl
  | gdiv d a b =>
    simp only [exec, execGdiv]
    split
    · exact .raised _ _
    · exact .setFieldReg rfl rfl
  | gexp d a => exact .setFieldReg rfl rfl
  | glog d a =>
    simp only [exec, execGlog]
    split
    · exact .raised _ _
    · exact .setFieldReg rfl rfl
  | peval d a b c =>
    simp only [exec, execPeval]
    split_ifs
    · exact .raised _ _
    · exact .raised _ _
    · exact .setFieldReg rfl rfl
  | lagr d a b c e =>
    simp only [exec, execLagr]
    split_ifs
    · exact .raised _ _
    · exact .raised _ _
    · split
      · exact .raised _ _
      · split
        · exact .raised _ _
        · exact .setFieldReg rfl rfl
  | lbasis d a c =>
    simp only [exec, execLbasis]
    split_ifs
    · exact .raised _ _
    · exact .raised _ _
    · exact .raised _ _
    · split
      · exact .raised _ _
      · exact .store rfl rfl (by rw [length_basis, length_readBytes]; rfl)
  | gdot d a b c e =>
    simp only [exec, execGdot]
    split_ifs
    · exact .raised _ _
    · exact .raised _ _
    · split
      · exact .raised _ _
      · exact .setFieldReg rfl rfl
  | hpack d a b c =>
    simp only [exec, execHpack]
    split_ifs with hlen
    · exact .raised _ _
    · exact .raised _ _
    · exact .raised _ _
    · exact .raised _ _
    · split
      · exact .raised _ _
      · refine .store rfl rfl ?_
        rw [length_packHeader (by rw [length_readBytes]; exact not_lt.mp hlen)]
        rfl
  | hunpack d a b =>
    simp only [exec, execHunpack]
    split_ifs
    · exact .raised _ _
    · exact .raised _ _
    · exact .raised _ _
    · exact .committed [(d, _), (b, _)] [] rfl (Nat.zero_le _)
  | b64e d a b c nopad =>
    simp only [exec, execB64e]
    split_ifs
    · exact .raised _ _
    · exact .raised _ _
    · exact .storeSetReg rfl rfl (by rw [length_b64enc, length_readBytes]; rfl)
  | b64d d a b c =>
    simp only [exec, execB64d]
    split_ifs
    · exact .raised _ _
    · split
      · exact .raised _ _
      · exact .storeResult rfl rfl (by simp only [storeRange, decodedLength, *])
  | henc d a b c nopad =>
    simp only [exec, execHenc]
    split_ifs with hlen
    · exact .raised _ _
    · exact .raised _ _
    · split
      · exact .raised _ _
      · refine .storeResult rfl rfl ?_
        have hk := identLength_le (readBytes s (readReg s a).toNat (readReg s b).toNat)
        rw [length_humanText (by rw [length_readBytes]; omega), length_readBytes]
        rfl
  | hdec d a b c =>
    simp only [exec, execHdec]
    split_ifs
    · exact .raised _ _
    · split
      · exact .raised _ _
      · split
        · exact .raised _ _
        · exact .storeResult rfl rfl (by simp only [storeRange, decodedLength, *])

/-- Every command's end: HALT's stop, an error entry, or a commit inside its frame. -/
theorem exec_frame_cases (i : Instr) (s : State) :
    (i = .halt ∧ exec i s = .next (stop (finish (s.pc + 4) s))) ∨ (i ≠ .halt ∧ EndsInFrame i s (exec i s)) := by
  by_cases hi : i = .halt
  · exact .inl ⟨hi, hi ▸ rfl⟩
  · exact .inr ⟨hi, exec_endsInFrame i s hi⟩

/-! ## What a commit leaves -/

section
variable (s : State) (writes : List (Reg × Word)) (a : Nat) (bs : List Byte) (next : Word)

theorem commit_pc : (commit s writes a bs next).pc = next := rfl

theorem commit_cmdCnt : (commit s writes a bs next).cmdCnt = s.cmdCnt + 1 := by
  rw [commit, finish_cmdCnt, setRegs_eq]; rfl

theorem readReg_commit_of_notMem {r : Reg} (h : r ∉ writes.map Prod.fst) :
    readReg (commit s writes a bs next) r = readReg s r := by
  rw [commit, readReg_finish, readReg_setRegs_of_notMem h, readReg_writeBytes]

end

/-- A command that completes, from ERR = 0: HALT stopped, or the command committed inside its frame. -/
theorem completed_cases {i : Instr} {s t : State} (ht : exec i s = .next t) (hok : t.err = false) :
    (i = .halt ∧ t = stop (finish (s.pc + 4) s)) ∨
    (i ≠ .halt ∧ ∃ writes bs, t = commit s writes (storeRange i s).1 bs (nextPc i s)) := by
  rcases exec_frame_cases i s with ⟨hi, hhalt⟩ | ⟨hi, hends⟩
  · cases hhalt.symm.trans ht
    exact .inl ⟨hi, rfl⟩
  · refine .inr ⟨hi, ?_⟩
    rw [ht] at hends
    cases hends with
    | raised e info => cases hok
    | committed writes bs => exact ⟨writes, bs, rfl⟩

/-- Settles O12: HALT and a commit both move pc to the next address and count one. -/
theorem completedCommandsAdvanceAndCount : Obligations.CompletedCommandsAdvanceAndCount := by
  intro i s t _ ht hok
  rcases completed_cases ht hok with ⟨rfl, rfl⟩ | ⟨-, writes, bs, rfl⟩
  · exact ⟨rfl, rfl⟩
  · exact ⟨commit_pc .., commit_cmdCnt ..⟩

/-- Settles O13: a commit keeps everything but registers, LMEM, pc and CMDCNT, and HALT's stop changes three bits. -/
theorem completedCommandsKeepStatus : Obligations.CompletedCommandsKeepStatus := by
  intro i s t _ ht hok
  rcases completed_cases ht hok with ⟨rfl, rfl⟩ | ⟨hi, writes, bs, rfl⟩
  · exact ⟨fun hne => absurd rfl hne, fun _ => ⟨rfl, rfl, rfl, rfl, rfl, rfl, ⟨rfl, rfl, rfl, rfl⟩, rfl, rfl, rfl, rfl⟩⟩
  · exact ⟨fun _ => sameControl_commit .., fun heq => absurd heq hi⟩

/-- Settles O14: HALT and an error entry write nothing, and a commit writes inside its frame. -/
theorem commandsChangeOnlyTheirDestinations : Obligations.CommandsChangeOnlyTheirDestinations := by
  intro i s t ht
  rcases exec_frame_cases i s with ⟨-, hhalt⟩ | ⟨-, hends⟩
  · cases hhalt.symm.trans ht
    exact ⟨fun _ _ => rfl, fun _ _ => rfl⟩
  · rw [ht] at hends
    cases hends with
    | raised e info => exact ⟨fun _ _ => rfl, fun _ _ => rfl⟩
    | committed writes bs hw hb =>
      refine ⟨fun r hr => readReg_commit_of_notMem s writes _ bs _ (hw ▸ hr), fun x hx => ?_⟩
      exact (stored_commit s writes _ bs _).2 x (hx.imp_right (Nat.le_trans (Nat.add_le_add_left hb _)))

/-! ## Alignment (R231) -/

/-- Adding a multiple of 4 keeps a pc aligned, because 4 divides 2^32. -/
theorem aligned_add {pc w : Word} (h : pc.toNat % 4 = 0) (hw : w.toNat % 4 = 0) : (pc + w).toNat % 4 = 0 := by
  rw [BitVec.toNat_add]; omega

theorem aligned_branchTarget {pc : Word} (imm : Imm16) (h : pc.toNat % 4 = 0) :
    (pc + imm.signExtend 32 * 4).toNat % 4 = 0 :=
  aligned_add h (by rw [BitVec.toNat_mul, show (4 : Word).toNat = 4 from rfl]; omega)

theorem aligned_nextPc {i : Instr} {s : State} (h : s.pc.toNat % 4 = 0) : (nextPc i s).toNat % 4 = 0 := by
  have hnext : (s.pc + 4).toNat % 4 = 0 := aligned_add h rfl
  cases i
  case j imm => exact aligned_branchTarget imm h
  case bz a imm =>
    rw [nextPc]
    split
    · exact aligned_branchTarget imm h
    · exact hnext
  case bnz a imm =>
    rw [nextPc]
    split
    · exact hnext
    · exact aligned_branchTarget imm h
  all_goals exact hnext

/-- Settles O15: HALT and an error entry leave pc + 4 and pc, and a commit the next address. -/
theorem noCommandMisalignsPc : Obligations.NoCommandMisalignsPc := by
  intro i s t h ht
  rcases exec_frame_cases i s with ⟨-, hhalt⟩ | ⟨-, hends⟩
  · cases hhalt.symm.trans ht
    exact aligned_add h rfl
  · rw [ht] at hends
    cases hends with
    | raised e info => exact h
    | committed writes bs => exact aligned_nextPc h

/-! ## A store into the next command (R79) -/

/-- Settles O24: the stored byte stands at its address, and lane k of the fetched word is the byte at pc + k. -/
theorem nextFetchSeesAStore : Obligations.NextFetchSeesAStore := by
  intro s t d a imm k ht _ hok hk haddr
  have hlane : (fetchWord t).extractLsb' (8 * k) 8 = byteAt t (t.pc.toNat + k) :=
    extractLsb'_windowLanes (w := .word) hk t t.pc.toNat 0
  rw [hlane, ← haddr]
  rcases Nat.lt_or_ge (effectiveAddress s a imm).toNat Config.lmemSize with hin | hout
  · cases (exec_stb_of_inside d hin).symm.trans ht
    rw [byteAt_finish]
    exact byteAt_writeBytes_inside (bs := [lowByte s d]) (k := 0) Nat.zero_lt_one
  · have hraise : exec (.stb d a imm) s = raise .memRange (effectiveAddress s a imm) s := byte_fails hout
    cases hraise.symm.trans ht
    cases hok

end Sys2Proof.Proofs
end

section
/-! The field of the ROM tables (40_field.md R121 to R131): multiplication modulo 0x11B is linear in its second factor, so
powers of 0x03 add their exponents; EXP lists those powers and LOG their exponents, and the laws follow by exponents. -/

namespace Sys2Proof.Proofs

open Sys2Proof.Machine Sys2Proof.Statements Sys2Proof.Laws

/-! ## Multiplication modulo 0x11B -/

theorem ite_xor (b c : Bool) (x : Byte) :
    (if b ^^ c then x else 0) = (if b then x else 0) ^^^ (if c then x else 0) := by
  cases b <;> cases c <;> simp

theorem xtime_xor (x y : Byte) : xtime (x ^^^ y) = xtime x ^^^ xtime y := by
  rw [xtime, xtime, xtime, BitVec.shiftLeft_xor_distrib, BitVec.getLsbD_xor]
  rw [show (0x00 : Byte) = 0 from rfl, ite_xor]
  ac_rfl

theorem xtime_zero : xtime 0 = 0 := rfl

theorem polyMulBits_xor (k : Nat) (x y z : Byte) :
    polyMulBits k x (y ^^^ z) = polyMulBits k x y ^^^ polyMulBits k x z := by
  induction k generalizing x y z with
  | zero => exact BitVec.xor_zero.symm
  | succ k ih =>
    rw [polyMulBits, polyMulBits, polyMulBits, BitVec.ushiftRight_xor_distrib, ih, BitVec.getLsbD_xor, ite_xor]
    ac_rfl

theorem polyMulBits_xtime (k : Nat) (x y : Byte) : polyMulBits k (xtime x) y = xtime (polyMulBits k x y) := by
  induction k generalizing x y with
  | zero => exact xtime_zero.symm
  | succ k ih =>
    rw [polyMulBits, polyMulBits, ih, xtime_xor, apply_ite xtime, xtime_zero]

theorem polyMulBits_congr {k : Nat} {y z : Byte} (h : ∀ i, i < k → y.getLsbD i = z.getLsbD i) (x : Byte) :
    polyMulBits k x y = polyMulBits k x z := by
  induction k generalizing x y z with
  | zero => rfl
  | succ k ih =>
    rw [polyMulBits, polyMulBits, h 0 k.succ_pos, ih fun i hi => ?_]
    rw [BitVec.getLsbD_ushiftRight, BitVec.getLsbD_ushiftRight, h (1 + i) (by omega)]

/-- The product over k + 1 bits is that over the low k and the term of bit k. -/
theorem polyMulBits_succ_top (k : Nat) (x y : Byte) :
    polyMulBits (k + 1) x y = polyMulBits k x y ^^^ (if y.getLsbD k then xtime^[k] x else 0) := by
  induction k generalizing x y with
  | zero => exact BitVec.xor_comm _ _
  | succ k ih =>
    rw [polyMulBits, ih, polyMulBits, BitVec.getLsbD_ushiftRight, Nat.add_comm 1 k, Function.iterate_succ_apply,
      BitVec.xor_assoc]

/-- X^8 is X^4 + X^3 + X + 1 modulo 0x11B. -/
theorem polyMul_reduction (x : Byte) : polyMul x 0x1B = xtime^[7] (xtime x) := by
  revert x
  decide +kernel

theorem polyMul_shiftLeft_one (x y : Byte) : polyMul x (y <<< 1) = polyMulBits 7 (xtime x) y := by
  rw [polyMul, polyMulBits, polyMulBits_congr (z := y) fun i hi => ?bits]
  · simp
  case bits =>
    rw [BitVec.getLsbD_ushiftRight, BitVec.getLsbD_shiftLeft]
    simp
    omega

theorem polyMulBits_zero (k : Nat) (x : Byte) : polyMulBits k x 0 = 0 := by simpa using polyMulBits_xor k x 0 0

theorem zero_polyMulBits (k : Nat) (y : Byte) : polyMulBits k 0 y = 0 := by
  induction k generalizing y with
  | zero => rfl
  | succ k ih =>
    rw [polyMulBits, ite_self, xtime_zero, ih]
    exact BitVec.zero_xor

theorem polyMul_xor (x y z : Byte) : polyMul x (y ^^^ z) = polyMul x y ^^^ polyMul x z := polyMulBits_xor 8 x y z

theorem polyMul_zero (x : Byte) : polyMul x 0 = 0 := polyMulBits_zero 8 x

theorem zero_polyMul (y : Byte) : polyMul 0 y = 0 := zero_polyMulBits 8 y

/-- The second factor's high bit goes over to the reduction, as the first factor's does. -/
theorem polyMul_xtime (x y : Byte) : polyMul x (xtime y) = xtime (polyMul x y) := by
  calc polyMul x (xtime y)
      = polyMulBits 7 (xtime x) y ^^^ (if y.getLsbD 7 then xtime^[7] (xtime x) else 0) := by
        rw [xtime, polyMul_xor, polyMul_shiftLeft_one, apply_ite (polyMul x), polyMul_reduction,
          show (0x00 : Byte) = 0 from rfl, polyMul_zero]
    _ = polyMul (xtime x) y := (polyMulBits_succ_top 7 (xtime x) y).symm
    _ = xtime (polyMul x y) := polyMulBits_xtime 8 x y

/-! ## Powers of 0x03 -/

theorem polyMul_one (x : Byte) : polyMul x 1 = x := by
  rw [polyMul, polyMulBits, if_pos (by decide), show (1 : Byte) >>> 1 = 0 from rfl, polyMulBits_zero]
  exact BitVec.xor_zero

theorem polyMul_three (x : Byte) : polyMul x 0x03 = xtime x ^^^ x := by
  rw [show (0x03 : Byte) = xtime 1 ^^^ 1 from rfl, polyMul_xor, polyMul_xtime, polyMul_one]

/-- A factor 0x03 can be multiplied in before or after. -/
theorem polyMul_polyMul_three (x y : Byte) : polyMul x (polyMul y 0x03) = polyMul (polyMul x y) 0x03 := by
  rw [polyMul_three, polyMul_xor, polyMul_xtime, polyMul_three]

theorem polyMul_polyPow_three (m n : Nat) :
    polyMul (polyPow 0x03 m) (polyPow 0x03 n) = polyPow 0x03 (m + n) := by
  induction n with
  | zero => exact polyMul_one _
  | succ n ih => rw [polyPow, polyMul_polyMul_three, ih, ← Nat.add_assoc, polyPow]

/-! ## The two tables (R121, R122) -/

theorem expROM_succ : ∀ i < 255, expROM (i + 1) = polyMul (expROM i) 0x03 := by decide +kernel

/-- EXP lists the powers of 0x03. -/
theorem expROM_eq_polyPow {i : Nat} (h : i ≤ 255) : expROM i = polyPow 0x03 i := by
  induction i with
  | zero => rfl
  | succ i ih => rw [expROM_succ i h, ih (by omega), polyPow]

theorem expROM_ne_zero : ∀ i ≤ 254, expROM i ≠ 0 := by decide +kernel

/-- LOG of a non-zero byte is an exponent of 0x03 below 255. -/
theorem expROM_logROM : ∀ x : Byte, x ≠ 0 → (logROM x).toNat ≤ 254 ∧ expROM (logROM x).toNat = x := by decide +kernel

theorem logROM_expROM : ∀ i ≤ 254, (logROM (expROM i)).toNat = i := by decide +kernel

/-- The exponents count modulo 255, because 0x03 to the power 255 is 1. -/
theorem polyPow_three_mod (n : Nat) : polyPow 0x03 (n % 255) = polyPow 0x03 n := by
  induction n using Nat.strong_induction_on with
  | _ n ih =>
    rcases Nat.lt_or_ge n 255 with h | h
    · rw [Nat.mod_eq_of_lt h]
    · obtain ⟨m, rfl⟩ := Nat.exists_eq_add_of_le' h
      have hcycle : polyPow 0x03 255 = 1 := (expROM_eq_polyPow le_rfl).symm
      rw [Nat.add_mod_right, ih m (by omega), ← polyMul_polyPow_three, hcycle, polyMul_one]

/-- Every non-zero byte is EXP of an exponent below 255. -/
theorem exists_expROM {x : Byte} (h : x ≠ 0) : ∃ i ≤ 254, x = expROM i :=
  ⟨_, (expROM_logROM x h).1, (expROM_logROM x h).2.symm⟩

/-! ## The laws by exponents (R124, R125, R131) -/

theorem gmul_zero (x : Byte) : gmul x 0 = 0 := if_pos (.inr rfl)

theorem zero_gmul (x : Byte) : gmul 0 x = 0 := if_pos (.inl rfl)

theorem gmul_expROM {i j : Nat} (hi : i ≤ 254) (hj : j ≤ 254) :
    gmul (expROM i) (expROM j) = expROM ((i + j) % 255) := by
  rw [gmul, if_neg (not_or.mpr ⟨expROM_ne_zero i hi, expROM_ne_zero j hj⟩), logROM_expROM i hi, logROM_expROM j hj]

theorem gquot_expROM {i j : Nat} (hi : i ≤ 254) (hj : j ≤ 254) :
    gquot (expROM i) (expROM j) = expROM ((i + 255 - j) % 255) := by
  rw [gquot, if_neg (expROM_ne_zero i hi), logROM_expROM i hi, logROM_expROM j hj]

theorem mod_le_254 (n : Nat) : n % 255 ≤ 254 := Nat.le_of_lt_succ (Nat.mod_lt n (by decide))

theorem gmul_comm (x y : Byte) : gmul x y = gmul y x := by
  simp only [gmul, or_comm, Nat.add_comm]

theorem gmul_assoc (x y z : Byte) : gmul (gmul x y) z = gmul x (gmul y z) := by
  rcases eq_or_ne x 0 with rfl | hx
  · simp only [zero_gmul]
  rcases eq_or_ne y 0 with rfl | hy
  · simp only [zero_gmul, gmul_zero]
  rcases eq_or_ne z 0 with rfl | hz
  · simp only [gmul_zero]
  obtain ⟨i, hi, rfl⟩ := exists_expROM hx
  obtain ⟨j, hj, rfl⟩ := exists_expROM hy
  obtain ⟨k, hk, rfl⟩ := exists_expROM hz
  rw [gmul_expROM hi hj, gmul_expROM hj hk, gmul_expROM (mod_le_254 _) hk, gmul_expROM hi (mod_le_254 _),
    Nat.mod_add_mod, Nat.add_mod_mod, Nat.add_assoc]

theorem one_gmul (x : Byte) : gmul 1 x = x := by
  rcases eq_or_ne x 0 with rfl | hx
  · exact gmul_zero 1
  obtain ⟨i, hi, rfl⟩ := exists_expROM hx
  rw [show (1 : Byte) = expROM 0 from rfl, gmul_expROM (by decide) hi, Nat.zero_add, Nat.mod_eq_of_lt (by omega)]

/-- A quotient times its divisor is the dividend. -/
theorem gmul_gquot (x : Byte) {y : Byte} (hy : y ≠ 0) : gmul (gquot x y) y = x := by
  rcases eq_or_ne x 0 with rfl | hx
  · exact zero_gmul y
  obtain ⟨i, hi, rfl⟩ := exists_expROM hx
  obtain ⟨j, hj, rfl⟩ := exists_expROM hy
  rw [gquot_expROM hi hj, gmul_expROM (mod_le_254 _) hj, Nat.mod_add_mod, Nat.sub_add_cancel (by omega),
    Nat.add_mod_right, Nat.mod_eq_of_lt (by omega)]

/-- A product divided by a factor is the other factor. -/
theorem gquot_gmul (x : Byte) {y : Byte} (hy : y ≠ 0) : gquot (gmul x y) y = x := by
  rcases eq_or_ne x 0 with rfl | hx
  · rw [zero_gmul]; rfl
  obtain ⟨i, hi, rfl⟩ := exists_expROM hx
  obtain ⟨j, hj, rfl⟩ := exists_expROM hy
  rw [gmul_expROM hi hj, gquot_expROM (mod_le_254 _) hj]
  congr 1
  omega

/-- The tables multiply modulo 0x11B. -/
theorem gmul_eq_polyMul (x y : Byte) : gmul x y = polyMul x y := by
  rcases eq_or_ne y 0 with rfl | hy
  · rw [gmul_zero, polyMul_zero]
  rcases eq_or_ne x 0 with rfl | hx
  · rw [zero_gmul]; exact (zero_polyMul y).symm
  obtain ⟨i, hi, rfl⟩ := exists_expROM hx
  obtain ⟨j, hj, rfl⟩ := exists_expROM hy
  have hmod := mod_le_254 (i + j)
  rw [gmul_expROM hi hj, expROM_eq_polyPow (by omega), expROM_eq_polyPow (by omega), expROM_eq_polyPow (by omega),
    polyPow_three_mod, polyMul_polyPow_three]

theorem gmul_gadd (x y z : Byte) : gmul x (gadd y z) = gadd (gmul x y) (gmul x z) := by
  simp only [gmul_eq_polyMul, gadd, polyMul_xor]

/-- Settles O28: the laws of multiplication and division by exponents, and distributivity by linearity. -/
theorem tablesDefineTheField : Obligations.TablesDefineTheField := by
  refine ⟨gmul_eq_polyMul, gmul_comm, gmul_assoc, one_gmul, zero_gmul, gmul_gadd,
    fun x y hy => ⟨gquot x y, if_neg hy, gmul_gquot x hy⟩, fun x y hy => ?quotient, fun x hx => (expROM_logROM x hx).2,
    logROM_expROM⟩
  case quotient => rw [gdiv, if_neg hy, gquot_gmul x hy]

end Sys2Proof.Proofs
end

section
/-! The field commands and the forms of a polynomial (40_field.md R126 to R130; 42_polyeval.md R202): the commands' results
by the field's laws, and PEVAL's loop as the sum of powers and as Horner's evaluation. -/

namespace Sys2Proof.Proofs

open Sys2Proof.Machine Sys2Proof.Statements Sys2Proof.Laws

/-! ## The field commands -/

/-- Settles O25: both words, and both results as field results of the low bytes. -/
theorem gaddAndGmulAreTheFieldOperations : Obligations.GaddAndGmulAreTheFieldOperations := by
  intro s d a b
  rw [← BitVec.toNat_xor, ← gmul_eq_polyMul, ← fieldOperand_eq_lowByte, ← fieldOperand_eq_lowByte]
  exact ⟨encodedAs_gadd d a b, encodedAs_gmul d a b, writes_of_setFieldReg rfl, writes_of_setFieldReg rfl⟩

/-- Settles O26: the word; the quotient times the divisor is the dividend; a zero divisor raises. -/
theorem gdivIsTheInverseOfMultiplication : Obligations.GdivIsTheInverseOfMultiplication := by
  intro s d a b
  rw [← fieldOperand_eq_lowByte, ← fieldOperand_eq_lowByte]
  refine ⟨encodedAs_gdiv d a b, fun hb => ⟨gquot (fieldOperand s a) (fieldOperand s b), ?product, ?quotient⟩,
    fun hb => ?raise⟩
  case product => rw [← gmul_eq_polyMul, gmul_gquot _ hb]
  case quotient => exact writes_of_setFieldReg (by rw [exec, execGdiv, gdiv, if_neg hb])
  case raise =>
    rw [← zextByte_eq_ofNat]
    exact raises_of_eq (by rw [exec, execGdiv, gdiv, if_pos hb])

/-- Settles O27: both words; EXP lists the powers of 0x03, LOG their exponents, and LOG of 0 raises. -/
theorem gexpAndGlogArePowersOfThree : Obligations.GexpAndGlogArePowersOfThree := by
  intro s d a
  rw [← fieldOperand_eq_lowByte]
  refine ⟨encodedAs_gexp d a, encodedAs_glog d a, ?power, fun ha => ?exponent, fun ha => raises_of_eq (if_pos ha)⟩
  case power =>
    rw [← expROM_eq_polyPow (Nat.le_of_lt_succ (fieldOperand s a).isLt)]
    exact writes_of_setFieldReg rfl
  case exponent =>
    obtain ⟨hle, hexp⟩ := expROM_logROM _ ha
    exact ⟨_, hle, expROM_eq_polyPow (hle.trans (by decide)) ▸ hexp, writes_of_setFieldReg (if_neg ha)⟩

/-! ## The forms of a polynomial -/

/-- PEVAL's loop, arrived at power k with the sum `acc`, adds the powers from k on. -/
theorem foldl_polyEval (C : List Byte) (X acc : Byte) (k : Nat) :
    (C.foldl (fun (acc : Byte × Byte) c => (gadd acc.1 (gmul c acc.2), gmul acc.2 X)) (acc, polyPow X k)).1 =
      acc ^^^ powerSum X k C := by
  induction C generalizing acc k with
  | nil => exact BitVec.xor_zero.symm
  | cons c C ih =>
    rw [List.foldl_cons, powerSum, gmul_eq_polyMul, gmul_eq_polyMul, ← polyPow, ih, gadd, BitVec.xor_assoc]

theorem polyEval_eq_powerSum (C : List Byte) (X : Byte) : polyEval C X = powerSum X 0 C :=
  (foldl_polyEval C X 0 0).trans BitVec.zero_xor

theorem polyMul_comm (x y : Byte) : polyMul x y = polyMul y x := by
  rw [← gmul_eq_polyMul, gmul_comm, gmul_eq_polyMul]

theorem polyMul_assoc (x y z : Byte) : polyMul (polyMul x y) z = polyMul x (polyMul y z) := by
  simp only [← gmul_eq_polyMul, gmul_assoc]

/-- The sum of powers from k on is X^k times Horner's value. -/
theorem powerSum_eq_horner (X : Byte) (k : Nat) (C : List Byte) :
    powerSum X k C = polyMul (polyPow X k) (horner X C) := by
  induction C generalizing k with
  | nil => exact (polyMul_zero _).symm
  | cons c C ih =>
    rw [powerSum, ih, horner, polyMul_xor, polyPow, polyMul_assoc, polyMul_comm X, polyMul_comm c, BitVec.xor_comm]

/-- Settles O30: the loop adds the powers from 0 on, and their sum is Horner's value times X^0. -/
theorem polynomialFormsAgree : Obligations.PolynomialFormsAgree := by
  intro C X
  refine ⟨polyEval_eq_powerSum C X, ?_⟩
  rw [polyEval_eq_powerSum, powerSum_eq_horner, polyPow, polyMul_comm, polyMul_one]

end Sys2Proof.Proofs
end

section
/-! Interpolation at 0 (43_lagrange.md R210, R217): the bytes with the tables' operations are a field of Mathlib, in which
the basis of R210 is Lagrange's, so interpolation recovers the constant coefficient. -/

namespace Sys2Proof.Proofs

open Sys2Proof.Machine Sys2Proof.Statements Sys2Proof.Laws

open Polynomial in
/-- Lagrange's formula at 0: the values of a polynomial at more nodes than its degree give its value at 0. -/
theorem sum_lagrange_at_zero {F ι : Type*} [Field F] [DecidableEq ι] {s : Finset ι} {v : ι → F} (hv : Set.InjOn v s)
    {f : F[X]} (hf : f.degree < s.card) :
    ∑ i ∈ s, (∏ j ∈ s.erase i, v j / (v j - v i)) * f.eval (v i) = f.eval 0 := by
  conv_rhs => rw [Lagrange.eq_interpolate hv hf, Lagrange.interpolate_apply, eval_finsetSum]
  refine Finset.sum_congr rfl fun i _ => ?_
  rw [eval_mul, eval_C, mul_comm, Lagrange.basis, eval_prod]
  refine congrArg _ (Finset.prod_congr rfl fun j _ => ?_)
  rw [Lagrange.basisDivisor, eval_mul, eval_C, eval_sub, eval_X, eval_C, zero_sub, mul_neg, ← neg_sub (v i) (v j),
    div_neg, div_eq_inv_mul]

/-! ## The bytes read in a field -/

/-- φ reads the bytes in a field F, the tables' operations as F's. -/
structure FieldReading {F : Type} [Field F] (φ : Byte → F) : Prop where
  zero : φ 0 = 0
  one : φ 1 = 1
  add : ∀ x y, φ (gadd x y) = φ x + φ y
  mul : ∀ x y, φ (gmul x y) = φ x * φ y
  injective : Function.Injective φ

/-- The inverse of R125's division, with the inverse of 0 as 0. -/
def byteInv (x : Byte) : Byte := if x = 0 then 0 else gquot 1 x

theorem gmul_byteInv {x : Byte} (hx : x ≠ 0) : gmul x (byteInv x) = 1 := by
  rw [byteInv, if_neg hx, gmul_comm, gmul_gquot 1 hx]

theorem byteInv_zero : byteInv 0 = 0 := rfl

theorem gadd_self (x : Byte) : gadd x x = 0 := gadd_eq_zero_iff.mpr rfl

/-- The bytes with the tables' operations, as a field (R131). -/
abbrev byteField : Field Byte :=
  @Field.ofMinimalAxioms Byte ⟨gadd⟩ ⟨gmul⟩ ⟨id⟩ ⟨byteInv⟩ ⟨0⟩ ⟨1⟩ BitVec.xor_assoc (fun _ => BitVec.zero_xor) gadd_self
    gmul_assoc gmul_comm one_gmul (fun _ => gmul_byteInv) byteInv_zero gmul_gadd ⟨0, 1, by decide⟩

theorem exists_fieldReading : ∃ (F : Type) (_ : Field F) (φ : Byte → F), FieldReading φ :=
  letI := byteField
  ⟨Byte, byteField, id, ⟨rfl, rfl, fun _ _ => rfl, fun _ _ => rfl, Function.injective_id⟩⟩

/-- Different indices of U name different bytes, so their sum is not 0. -/
theorem gadd_ne_zero_of_nodup {U : List Byte} (hU : U.Nodup) {i j : Nat} (hj : j < U.length) (hi : i < U.length)
    (hne : j ≠ i) : gadd (U.getD j 0) (U.getD i 0) ≠ 0 := by
  rw [ne_eq, gadd_eq_zero_iff, List.getD_eq_getElem U 0 hj, List.getD_eq_getElem U 0 hi, hU.getElem_inj_iff]
  exact hne

section
variable {F : Type} [Field F] {φ : Byte → F} (h : FieldReading φ)
include h

theorem FieldReading.sub (x y : Byte) : φ (gadd x y) = φ x - φ y := by
  have hneg : φ y + φ y = 0 := by rw [← h.add, gadd_self, h.zero]
  rw [h.add, eq_sub_iff_add_eq, add_assoc, hneg, add_zero]

theorem FieldReading.quot (x : Byte) {y : Byte} (hy : y ≠ 0) : φ (gquot x y) = φ x / φ y := by
  have hy' : φ y ≠ 0 := h.zero ▸ h.injective.ne hy
  rw [eq_div_iff hy', ← h.mul, gmul_gquot x hy]

theorem FieldReading.foldl_gadd {α : Type} (g : α → Byte) (l : List α) (x : Byte) :
    φ (l.foldl (fun acc a => gadd acc (g a)) x) = φ x + (l.map fun a => φ (g a)).sum := by
  induction l generalizing x with
  | nil => exact (add_zero _).symm
  | cons a l ih => rw [List.foldl_cons, ih, h.add, List.map_cons, List.sum_cons, add_assoc]

theorem FieldReading.foldl_gmul {α : Type} (g : α → Byte) (l : List α) (x : Byte) :
    φ (l.foldl (fun acc a => gmul acc (g a)) x) = φ x * (l.map fun a => φ (g a)).prod := by
  induction l generalizing x with
  | nil => exact (mul_one _).symm
  | cons a l ih => rw [List.foldl_cons, ih, h.mul, List.map_cons, List.prod_cons, mul_assoc]

/-- Element i of the basis is Lagrange's product over the other indices. -/
theorem FieldReading.basisAt {U : List Byte} (hU : U.Nodup) {i : Nat} (hi : i < U.length) :
    φ (basisAt U i) =
      ∏ j ∈ (Finset.range U.length).erase i, φ (U.getD j 0) / (φ (U.getD j 0) - φ (U.getD i 0)) := by
  have hfactor : ∀ j ∈ (List.range U.length).filter (· ≠ i),
      φ (gquot (U.getD j 0) (gadd (U.getD j 0) (U.getD i 0))) =
        φ (U.getD j 0) / (φ (U.getD j 0) - φ (U.getD i 0)) := fun j hj => by
    obtain ⟨hjlt, hne⟩ := List.mem_filter.mp hj
    rw [h.quot _ (gadd_ne_zero_of_nodup hU (List.mem_range.mp hjlt) hi (of_decide_eq_true hne)), h.sub]
  rw [Machine.basisAt, h.foldl_gmul, show (0x01 : Byte) = 1 from rfl, h.one, one_mul, ← Finset.filter_ne',
    List.map_congr_left hfactor]
  rfl

/-- The dot product with a basis is a sum over the indices. -/
theorem FieldReading.dot_map_range (f g : Nat → Byte) (n : Nat) :
    φ (dot ((List.range n).map f) ((List.range n).map g)) = ∑ i ∈ Finset.range n, φ (f i) * φ (g i) := by
  rw [dot, List.zip_map', List.foldl_map, h.foldl_gadd (fun i => gmul (f i) (g i)), show (0x00 : Byte) = 0 from rfl,
    h.zero, zero_add, List.map_congr_left fun i _ => h.mul (f i) (g i)]
  rfl

end

/-! ## The polynomial of a coefficient sequence -/

section
open Polynomial

variable {F : Type} [Field F] (φ : Byte → F)

/-- The polynomial with the coefficients C, the constant one first. -/
noncomputable def polyOf : List Byte → F[X]
  | [] => 0
  | c :: cs => polyOf cs * X + C (φ c)

theorem degree_polyOf_lt (cs : List Byte) : (polyOf φ cs).degree < cs.length := by
  rw [degree_lt_iff_coeff_zero]
  induction cs with
  | nil => exact fun m _ => coeff_zero m
  | cons c cs ih =>
    intro m hm
    obtain ⟨k, rfl⟩ := Nat.exists_eq_add_of_le' (Nat.lt_of_lt_of_le Nat.zero_lt_one (Nat.le_of_add_left_le hm))
    rw [polyOf, coeff_add, coeff_mul_X, coeff_C_succ, ih k (by simpa using hm), add_zero]

theorem eval_polyOf (h : FieldReading φ) (cs : List Byte) (x : Byte) :
    (polyOf φ cs).eval (φ x) = φ (polyEval cs x) := by
  rw [(polynomialFormsAgree cs x).2]
  induction cs with
  | nil => rw [polyOf, eval_zero, horner, h.zero]
  | cons c cs ih =>
    rw [polyOf, eval_add, eval_mul, ih, eval_X, eval_C, horner, ← gmul_eq_polyMul, ← h.mul, ← h.add, gadd]

end

/-! ## Interpolation recovers the constant coefficient (R217) -/

/-- A list is what its indices read. -/
theorem map_getD_range (U : List Byte) : (List.range U.length).map (fun i => U.getD i 0) = U := by
  apply List.ext_getElem (by simp)
  intro i _ hi
  rw [List.getElem_map, List.getElem_range, List.getD_eq_getElem U 0 hi]

theorem injOn_getD_range {F : Type} {φ : Byte → F} (hφ : Function.Injective φ) {U : List Byte} (hU : U.Nodup) :
    Set.InjOn (fun i => φ (U.getD i 0)) (Finset.range U.length) := by
  intro i hi j hj heq
  by_contra hne
  refine gadd_ne_zero_of_nodup hU (Finset.mem_range.mp hi) (Finset.mem_range.mp hj) hne ?_
  exact gadd_eq_zero_iff.mpr (hφ heq)

/-- Settles O36: read in a field, interp is Lagrange's formula at 0 for the polynomial with these coefficients. -/
theorem interpolationRecoversTheSecret : Obligations.InterpolationRecoversTheSecret := by
  intro U C secret _ hU _ hlen
  obtain ⟨F, _, φ, h⟩ := exists_fieldReading
  have hvalues : U.map (polyEval (secret :: C)) =
      (List.range U.length).map (fun i => polyEval (secret :: C) (U.getD i 0)) := by
    conv_lhs => rw [← map_getD_range U, List.map_map]
    rfl
  have hdegree : (polyOf φ (secret :: C)).degree < (Finset.range U.length).card := by
    rw [Finset.card_range]
    exact (degree_polyOf_lt φ _).trans_le (by exact_mod_cast hlen)
  apply h.injective
  calc φ (interp U (U.map (polyEval (secret :: C))))
      = ∑ i ∈ Finset.range U.length, φ (basisAt U i) * φ (polyEval (secret :: C) (U.getD i 0)) := by
        rw [interp, basis, hvalues, h.dot_map_range]
    _ = ∑ i ∈ Finset.range U.length,
          (∏ j ∈ (Finset.range U.length).erase i, φ (U.getD j 0) / (φ (U.getD j 0) - φ (U.getD i 0))) *
            (polyOf φ (secret :: C)).eval (φ (U.getD i 0)) :=
        Finset.sum_congr rfl fun i hi => by rw [h.basisAt hU (Finset.mem_range.mp hi), eval_polyOf φ h]
    _ = (polyOf φ (secret :: C)).eval 0 := sum_lagrange_at_zero (injOn_getD_range h.injective hU) hdegree
    _ = φ secret := by
        simp [polyOf]

end Sys2Proof.Proofs
end

section
/-! One command after another through LMEM (43_lagrange.md R216; 41_codec.md R152 to R155): GDOT on a basis that LBASIS
stored, and HUNPACK of a header that HPACK stored. A command that completed has passed its checks, so what it stored is
known, and the second command reads it. -/

namespace Sys2Proof.Proofs

open Sys2Proof.Machine Sys2Proof.Statements Sys2Proof.Laws

/-! ## Completed or raised -/

theorem not_raises_of_completed {i : Instr} {s t : State} (ht : exec i s = .next t) (hok : t.err = false) (e : ErrCode)
    (info : Word) : ¬ Raises (exec i s) s e info := by
  rintro ⟨u, hu, -, herr, -⟩
  cases hu.symm.trans ht
  rw [herr] at hok
  cases hok

/-- What a completing command stored is what the state it answers holds. -/
theorem stored_of_completes {i : Instr} {s t : State} {writes : List (Reg × Word)} {a : Nat} {bs : List Byte}
    {next : Word} (h : Completes i s writes a bs next) (ht : exec i s = .next t) : Stored s t a bs := by
  obtain ⟨u, hu, -, -, hstored, -⟩ := h
  cases hu.symm.trans ht
  exact hstored

/-- A range that holds a stored sequence reads as that sequence. -/
theorem readBytes_of_stored {s t u : State} {a : Nat} {bs : List Byte} (h : Stored s t a bs)
    (hu : ∀ k, k < bs.length → byteAt u (a + k) = byteAt t (a + k)) : readBytes u a bs.length = bs :=
  readBytes_of_bytes fun k hk => by rw [hu k hk, h.1 k hk, List.getD_eq_getElem _ _ hk]

/-! ## LBASIS, then GDOT (R216) -/

/-- An LBASIS that completed has passed R214's checks. -/
theorem lbasis_checks {s t : State} {d a c : Reg} (ht : exec (.lbasis d a c) s = .next t) (hok : t.err = false) :
    CountInRange (readReg s c) ∧ InLmem (readReg s a) (readReg s c).toNat ∧ InLmem (readReg s d) (readReg s c).toNat ∧
      indexError (readBytes s (readReg s a).toNat (readReg s c).toNat) = none := by
  obtain ⟨-, hcount, hsrc, hdst, hindex, -⟩ := lbasisStoresTheBasis s d a c
  have hraises := not_raises_of_completed ht hok
  have hn := not_not.mp fun hn => hraises _ _ (hcount hn)
  have hu := not_not.mp fun hu => hraises _ _ (hsrc hn hu)
  have hd := not_not.mp fun hd => hraises _ _ (hdst hn hu hd)
  exact ⟨hn, hu, hd, Option.eq_none_iff_forall_ne_some.mpr fun info hx => hraises _ _ (hindex hn hu hd info hx)⟩

/-- The bytes of a strided access depend on its elements only. -/
theorem elementBytes_congr {s u : State} {base stride : Word} {n : Nat}
    (h : ∀ k, k < n → byteAt u (element base stride k).toNat = byteAt s (element base stride k).toNat) :
    elementBytes u base stride n = elementBytes s base stride n :=
  List.map_congr_left fun k hk => h k (List.mem_range.mp hk)

/-- Settles O35: LAGR's value is the dot product of the basis, which LBASIS stored and GDOT reads, and the V elements. -/
theorem lbasisThenGdotIsLagr : Obligations.LbasisThenGdotIsLagr := by
  intro s t u p a b c d e a' b' c' d' e' _ ht hok ha' hc' hb' he' hbasis hv
  obtain ⟨hn, hu, hp, hx⟩ := lbasis_checks ht hok
  have hin : firstOutside (stridedAddrs (readReg s b) (readReg s e) (readReg s c).toNat) = none :=
    firstOutside_eq_none fun k hk => (hv k hk).1
  obtain ⟨-, -, -, -, -, hstores⟩ := lbasisStoresTheBasis s p a c
  obtain ⟨hcompletes, hlen⟩ := hstores hn hu hp hx
  have hread := readBytes_of_stored (stored_of_completes hcompletes ht) fun k hk => hbasis k (hlen.symm ▸ hk)
  rw [hlen] at hread
  have hgdot := exec_gdot_of_inside (s := u) (a := a') (b := b') (c := c') (e := e') d' (hc' ▸ hn)
    (by rw [ha', hc']; exact hp) (by rw [hb', he', hc']; exact hin)
  rw [ha', hb', hc', he', hread, elementBytes_congr fun k hk => (hv k hk).2, ← interp] at hgdot
  exact ⟨_, writes_of_setFieldReg hgdot, writes_of_setFieldReg (exec_lagr_of_indexOK d hn hu hin hx)⟩

/-! ## HPACK, then HUNPACK -/

/-- An HPACK that completed has passed R152's checks, and its identifier bytes are in IDSET. -/
theorem hpack_checks {s t : State} {d a b c : Reg} (ht : exec (.hpack d a b c) s = .next t) (hok : t.err = false) :
    (readReg s b).toNat ≤ 16 ∧ (fieldsHash (readReg s c)).toNat ≤ 2 ∧ InLmem (readReg s a) (readReg s b).toNat ∧
      InLmem (readReg s d) 20 ∧
      firstBadIdent (readBytes s (readReg s a).toNat (readReg s b).toNat) = none := by
  have hraises := not_raises_of_completed ht hok
  obtain ⟨-, -, hpack⟩ := hpackPacksTheHeader
  obtain ⟨-, hlen, hhash, hsrc, hdst, -, -⟩ := hpack s d a b c
  have hl := not_lt.mp fun hl => hraises _ _ (hlen hl)
  have hh := not_lt.mp fun hh => hraises _ _ (hhash hl hh)
  have hi := not_not.mp fun hi => hraises _ _ (hsrc hl hh hi)
  have hd := not_not.mp fun hd => hraises _ _ (hdst hl hh hi hd)
  refine ⟨hl, hh, hi, hd, Option.eq_none_iff_forall_ne_some.mpr fun k hk => ?_⟩
  exact hraises _ _ (raises_of_eq (exec_hpack_of_badIdent hl hh hi hd hk))

/-- An identifier in IDSET holds no 0x00 (R153). -/
theorem getD_ne_zero_of_identOK {id : List Byte} (hgood : firstBadIdent id = none) {k : Nat} (hk : k < id.length) :
    id.getD k 0 ≠ 0 := by
  have hmem : id.getD k 0 ∈ id := List.getD_eq_getElem id 0 hk ▸ List.getElem_mem hk
  have hid := List.findIdx?_eq_none_iff.mp hgood _ hmem
  intro hzero
  rw [hzero] at hid
  exact absurd hid (by decide)

/-- The length of R154 of a header with an identifier in IDSET is that of the identifier. -/
theorem identLength_packHeader {id : List Byte} (hid : id.length ≤ 16) (hgood : firstBadIdent id = none)
    (hash threshold lenHigh lenLow : Byte) : identLength (packHeader id hash threshold lenHigh lenLow) = id.length := by
  have hlen : 16 ≤ (packHeader id hash threshold lenHigh lenLow).length := by rw [length_packHeader hid]; decide
  have hle := identLength_le (packHeader id hash threshold lenHigh lenLow)
  rcases Nat.lt_trichotomy (identLength (packHeader id hash threshold lenHigh lenLow)) id.length with hlt | heq | hgt
  · have hzero := getD_eq_zero_of_identLength_le hlen (Nat.le_sub_one_of_lt hlt) (by omega)
    rw [getD_packHeader_ident _ _ _ _ (by omega)] at hzero
    exact absurd hzero (getD_ne_zero_of_identOK hgood (by omega))
  · exact heq
  · have hlast := getD_identLength_pred_ne_zero hlen (by omega)
    exact absurd (getD_packHeader_padding _ _ _ _ (by omega) (by omega)) hlast

/-- The fields word is its four bytes as HUNPACK puts them together (R152, R155). -/
theorem fields_append (fl : Word) : fieldsLenHigh fl ++ fieldsLenLow fl ++ fieldsThreshold fl ++ fieldsHash fl = fl :=
  wordLE_extractLsb' fl

/-- Settles O39: HUNPACK reads the header that HPACK stored, whose fields and length are those it was packed from. -/
theorem hunpackOfHpackGivesTheFields : Obligations.HunpackOfHpackGivesTheFields := by
  intro s t u d a b c d' a' b' _ ht hok hne ha' hheld
  obtain ⟨hl, hh, hi, hd, hgood⟩ := hpack_checks ht hok
  generalize hid : readBytes s (readReg s a).toNat (readReg s b).toNat = id at hgood
  have hidlen : id.length = (readReg s b).toNat := hid ▸ length_readBytes ..
  have hid16 : id.length ≤ 16 := hidlen ▸ hl
  generalize hfl : readReg s c = fl at hh
  generalize hhdr : packHeader id (fieldsHash fl) (fieldsThreshold fl) (fieldsLenHigh fl) (fieldsLenLow fl) = hdr
  have hlen : hdr.length = 20 := hhdr ▸ length_packHeader hid16 ..
  have hexec : exec (.hpack d a b c) s = complete (writeBytes s (readReg s d).toNat hdr) := by
    rw [exec_hpack_of_identOK hl (hfl ▸ hh) hi hd (hid ▸ hgood), hid, hfl, hhdr]
  have hread : readBytes u (readReg u a').toNat 20 = hdr := by
    rw [ha', ← hlen]
    exact readBytes_of_stored (stored_of_completes (completes_of_store hexec) ht) fun k hk => hheld k (hlen ▸ hk)
  have htail : ∀ k, hdr.getD (16 + k) 0 = [fieldsHash fl, fieldsThreshold fl, fieldsLenHigh fl, fieldsLenLow fl].getD k 0 :=
    fun k => hhdr ▸ getD_packHeader_tail _ _ _ _ hid16
  refine writes_of_setReg_setReg hne (((if_neg hne).trans (range_passes (ha' ▸ hd))).trans ?_)
  rw [hread]
  refine (hash_passes ((htail 0).symm ▸ hh)).trans ?_
  have hident : natWord (identLength hdr) = readReg s b := by
    rw [← hhdr, identLength_packHeader hid16 hgood, hidlen, natWord, BitVec.ofNat_toNat, BitVec.setWidth_eq]
  rw [hident, htail 0, htail 1, htail 2, htail 3]
  exact congrArg (fun fields => complete (setReg (setReg u d' fields) b' (readReg s b))) (fields_append fl)

end Sys2Proof.Proofs
end

section
/-! The Base64 decoder (41_codec.md R160 to R164): an input is a body and its trailing pads; a body in the alphabet is the
text of its 6-bit values, on which the remaining checks of R163 act, and an encoding passes them all. -/

namespace Sys2Proof.Proofs

open Sys2Proof.Machine Sys2Proof.Statements Sys2Proof.Laws

/-! ## The alphabet (R160) -/

theorem toNat_b64Char : ∀ v : BitVec 6,
    (v.toNat ≤ 25 → (b64Char v).toNat = 0x41 + v.toNat) ∧
    (26 ≤ v.toNat → v.toNat ≤ 51 → (b64Char v).toNat = 0x61 + (v.toNat - 26)) ∧
    (52 ≤ v.toNat → v.toNat ≤ 61 → (b64Char v).toNat = 0x30 + (v.toNat - 52)) ∧
    (v.toNat = 62 → b64Char v = 0x2D) ∧ (v.toNat = 63 → b64Char v = 0x5F) := by decide +kernel

theorem b64Val_b64Char : ∀ v : BitVec 6, b64Val (b64Char v) = some v := by decide +kernel

theorem b64Char_of_b64Val {ch : Byte} {v : BitVec 6} (h : b64Val ch = some v) : b64Char v = ch := by
  obtain ⟨hupper, hlower, hdigit, hminus, hline⟩ := toNat_b64Char v
  simp only [b64Val] at h
  split_ifs at h with h1 h2 h3 h4 h5 <;> obtain rfl := Option.some.inj h
  case pos => exact BitVec.eq_of_toNat_eq (by rw [hupper] <;> rw [BitVec.toNat_ofNat] <;> omega)
  case pos => exact BitVec.eq_of_toNat_eq (by rw [hlower] <;> rw [BitVec.toNat_ofNat] <;> omega)
  case pos => exact BitVec.eq_of_toNat_eq (by rw [hdigit] <;> rw [BitVec.toNat_ofNat] <;> omega)
  case pos => exact (hminus rfl).trans (BitVec.eq_of_toNat_eq h4.symm)
  case pos => exact (hline rfl).trans (BitVec.eq_of_toNat_eq h5.symm)

theorem b64Val_eq_some_iff (ch : Byte) (v : BitVec 6) : b64Val ch = some v ↔ b64Char v = ch :=
  ⟨b64Char_of_b64Val, fun h => h ▸ b64Val_b64Char v⟩

theorem isB64_iff (ch : Byte) : isB64 ch = true ↔ ∃ v, b64Char v = ch := by
  rw [isB64, Option.isSome_iff_exists]
  exact exists_congr fun v => b64Val_eq_some_iff ch v

theorem isB64_b64Char (v : BitVec 6) : isB64 (b64Char v) = true := (isB64_iff _).mpr ⟨v, rfl⟩

theorem b64Char_ne_padChar (v : BitVec 6) : b64Char v ≠ padChar := fun h => by
  have hpad : isB64 padChar = true := h ▸ isB64_b64Char v
  exact absurd hpad (by decide)

/-! ## Texts of 6-bit values -/

theorem filterMap_b64Val_map (vals : List (BitVec 6)) : (vals.map b64Char).filterMap b64Val = vals := by
  rw [List.filterMap_map]
  exact (List.filterMap_congr fun v _ => b64Val_b64Char v).trans List.filterMap_some

/-- A body in the alphabet is the text of its values. -/
theorem map_b64Char_filterMap {body : List Byte} (h : ∀ ch ∈ body, isB64 ch = true) :
    (body.filterMap b64Val).map b64Char = body := by
  induction body with
  | nil => rfl
  | cons ch body ih =>
    obtain ⟨hch, hbody⟩ := List.forall_mem_cons.mp h
    obtain ⟨v, rfl⟩ := (isB64_iff ch).mp hch
    rw [List.filterMap_cons_some (b64Val_b64Char v), List.map_cons, ih hbody]

theorem findIdx?_notB64_map (vals : List (BitVec 6)) : (vals.map b64Char).findIdx? (fun ch => !isB64 ch) = none := by
  refine List.findIdx?_eq_none_iff.mpr fun ch hch => ?_
  obtain ⟨v, -, rfl⟩ := List.mem_map.mp hch
  rw [isB64_b64Char]; rfl

theorem getLast?_map_b64Char_ne (vals : List (BitVec 6)) : (vals.map b64Char).getLast? ≠ some padChar := by
  intro h
  obtain ⟨v, -, hv⟩ := List.mem_map.mp (List.mem_of_getLast? h)
  exact b64Char_ne_padChar v hv

/-! ## A body and its trailing pads (R163, the first lines) -/

/-- Every input is a body that ends in no pad, and its pads. -/
theorem exists_body_pads (s : List Byte) :
    ∃ body p, s = body ++ List.replicate p padChar ∧ body.getLast? ≠ some padChar := by
  induction s using List.reverseRecOn with
  | nil => exact ⟨[], 0, rfl, nofun⟩
  | append_singleton s ch ih =>
    rcases eq_or_ne ch padChar with rfl | hch
    · obtain ⟨body, p, rfl, hlast⟩ := ih
      exact ⟨body, p + 1, by rw [List.replicate_succ', List.append_assoc], hlast⟩
    · exact ⟨s ++ [ch], 0, by simp, by simpa using hch⟩

section
variable {body : List Byte} (hlast : body.getLast? ≠ some padChar) (p : Nat)
include hlast

theorem trailingPads_append : trailingPads (body ++ List.replicate p padChar) = p := by
  have hnone : body.reverse.takeWhile (· == padChar) = [] := by
    rw [← List.head?_reverse] at hlast
    cases hb : body.reverse with
    | nil => rfl
    | cons ch rest =>
      rw [hb] at hlast
      exact List.takeWhile_cons_of_neg (by simpa using hlast)
  rw [trailingPads, List.reverse_append, List.reverse_replicate,
    List.takeWhile_append_of_pos fun ch hch => by rw [List.eq_of_mem_replicate hch]; rfl, hnone, List.append_nil,
    List.length_replicate]

theorem b64dec_of_notB64 {k : Nat} (hk : body.findIdx? (fun ch => !isB64 ch) = some k) :
    b64dec (body ++ List.replicate p padChar) = .error k := by
  simp only [b64dec, trailingPads_append hlast, List.length_append, List.length_replicate, Nat.add_sub_cancel,
    List.take_left, hk]

end

/-! ## The checks of an alphabet text -/

/-- The checks of R163 after the first, on the values of the body and the number of pads. -/
def b64Checks (vals : List (BitVec 6)) (p : Nat) : Except Nat (List Byte) :=
  let m := vals.length
  let last := vals.getLastD 0
  if 2 < p then .error (m + 2)
  else if m % 4 = 1 then .error (m + p)
  else if 0 < p ∧ (m + p) % 4 ≠ 0 then .error (m + p)
  else if m % 4 = 2 ∧ last &&& 0x0F ≠ 0 then .error (m - 1)
  else if m % 4 = 3 ∧ last &&& 0x03 ≠ 0 then .error (m - 1)
  else .ok (b64Bytes vals)

/-- On an alphabet text the decoder makes these checks. -/
theorem b64dec_map_b64Char (vals : List (BitVec 6)) (p : Nat) :
    b64dec (vals.map b64Char ++ List.replicate p padChar) = b64Checks vals p := by
  simp only [b64dec, trailingPads_append (getLast?_map_b64Char_ne vals), List.length_append, List.length_replicate,
    Nat.add_sub_cancel, List.take_left, findIdx?_notB64_map, filterMap_b64Val_map]
  simp only [List.length_map, b64Checks]

/-- What R163 asks of an alphabet text that it accepts. -/
structure Canonical (vals : List (BitVec 6)) (p : Nat) : Prop where
  pads : p ≤ 2
  whole : vals.length % 4 ≠ 1
  padded : 0 < p → (vals.length + p) % 4 = 0
  two : vals.length % 4 = 2 → vals.getLastD 0 &&& 0x0F = 0
  three : vals.length % 4 = 3 → vals.getLastD 0 &&& 0x03 = 0

theorem b64Checks_of_canonical {vals : List (BitVec 6)} {p : Nat} (h : Canonical vals p) :
    b64Checks vals p = .ok (b64Bytes vals) := by
  obtain ⟨hp, hm, hn, h2, h3⟩ := h
  rw [b64Checks, if_neg hp.not_gt, if_neg hm, if_neg fun hpad => hpad.2 (hn hpad.1), if_neg fun hlow => hlow.2 (h2 hlow.1),
    if_neg fun hlow => hlow.2 (h3 hlow.1)]

theorem canonical_of_b64Checks {vals : List (BitVec 6)} {p : Nat} {out : List Byte} (h : b64Checks vals p = .ok out) :
    Canonical vals p ∧ out = b64Bytes vals := by
  simp only [b64Checks] at h
  split_ifs at h with hp hm hn h2 h3
  exact ⟨⟨not_lt.mp hp, hm, fun h0 => not_not.mp fun h4 => hn ⟨h0, h4⟩, fun h4 => not_not.mp fun hlow => h2 ⟨h4, hlow⟩,
    fun h4 => not_not.mp fun hlow => h3 ⟨h4, hlow⟩⟩, (Except.ok.inj h).symm⟩

/-- The last value of a body in the alphabet is that of its last byte. -/
theorem b64Val_getLastD_map {vals : List (BitVec 6)} (h : vals ≠ []) :
    b64Val ((vals.map b64Char).getLastD 0) = some (vals.getLastD 0) := by
  obtain ⟨init, v, rfl⟩ := (List.eq_nil_or_concat vals).resolve_left h
  rw [List.concat_eq_append, List.map_append, List.map_singleton, List.getLastD_concat, List.getLastD_concat,
    b64Val_b64Char]

/-- A canonical form in the words of the statements, which read the last value off the last byte. -/
theorem canonical_iff (vals : List (BitVec 6)) (p : Nat) :
    Canonical vals p ↔ p ≤ 2 ∧ (vals.map b64Char).length % 4 ≠ 1 ∧
      (0 < p → (vals.map b64Char ++ List.replicate p padChar).length % 4 = 0) ∧
      ((vals.map b64Char).length % 4 = 2 →
        ∀ v, b64Val ((vals.map b64Char).getLastD 0) = some v → v &&& 0x0F = 0) ∧
      ((vals.map b64Char).length % 4 = 3 →
        ∀ v, b64Val ((vals.map b64Char).getLastD 0) = some v → v &&& 0x03 = 0) := by
  have hlast {r : Nat} (mask : BitVec 6) (hr : r ≠ 0) : (vals.length % 4 = r →
      ∀ v, b64Val ((vals.map b64Char).getLastD 0) = some v → v &&& mask = 0) ↔
        (vals.length % 4 = r → vals.getLastD 0 &&& mask = 0) := by
    refine imp_congr_right fun hlen => ?_
    have hne : vals ≠ [] := by rintro rfl; exact hr hlen.symm
    rw [b64Val_getLastD_map hne]
    simp only [Option.some.injEq, forall_eq']
  rw [List.length_append, List.length_replicate, List.length_map, hlast _ (by decide), hlast _ (by decide)]
  exact ⟨fun ⟨hp, hm, hn, h2, h3⟩ => ⟨hp, hm, hn, h2, h3⟩, fun ⟨hp, hm, hn, h2, h3⟩ => ⟨hp, hm, hn, h2, h3⟩⟩

theorem findIdx?_notB64_eq_some {body : List Byte} {k : Nat} (hk : k < body.length) (hbad : isB64 (body.getD k 0) = false)
    (hgood : ∀ k', k' < k → isB64 (body.getD k' 0) = true) : body.findIdx? (fun ch => !isB64 ch) = some k := by
  refine List.findIdx?_eq_some_iff_getElem.mpr ⟨hk, ?_, fun j hj => ?_⟩
  · rw [← List.getD_eq_getElem body 0 hk, hbad]; rfl
  · rw [← List.getD_eq_getElem body 0 (by omega), hgood j hj]; decide

/-- A body in the alphabet is the text of some values. -/
theorem exists_map_b64Char {body : List Byte} (h : ∀ ch ∈ body, isB64 ch = true) :
    ∃ vals : List (BitVec 6), body = vals.map b64Char := ⟨_, (map_b64Char_filterMap h).symm⟩

/-! ## The inputs accepted, and the offsets of the others (R163) -/

/-- Settles O42: the body of an accepted input is in the alphabet, and the remaining checks ask for the canonical form. -/
theorem base64AcceptsExactlyTheCanonicalForms : Obligations.Base64AcceptsExactlyTheCanonicalForms := by
  intro s
  constructor
  · rintro ⟨out, hout⟩
    obtain ⟨body, p, rfl, hlast⟩ := exists_body_pads s
    cases hbad : body.findIdx? (fun ch => !isB64 ch) with
    | some k => exact nomatch (b64dec_of_notB64 hlast p hbad).symm.trans hout
    | none =>
      have hgood : ∀ ch ∈ body, isB64 ch = true := by simpa using hbad
      obtain ⟨vals, rfl⟩ := exists_map_b64Char hgood
      rw [b64dec_map_b64Char] at hout
      exact ⟨_, p, ⟨rfl, hgood⟩, (canonical_iff vals p).mp (canonical_of_b64Checks hout).1⟩
  · rintro ⟨body, p, ⟨rfl, hgood⟩, hcanonical⟩
    obtain ⟨vals, rfl⟩ := exists_map_b64Char hgood
    exact ⟨_, (b64dec_map_b64Char vals p).trans (b64Checks_of_canonical ((canonical_iff vals p).mpr hcanonical))⟩

/-- Settles O43: a byte outside the alphabet ends the first check; any other body is the text of its values. -/
theorem base64RejectsAtTheFirstFailure : Obligations.Base64RejectsAtTheFirstFailure := by
  intro s body p hs hlast m n last
  subst hs
  refine ⟨fun k hk hbad hbefore => b64dec_of_notB64 hlast p (findIdx?_notB64_eq_some hk hbad hbefore), fun hgood => ?_⟩
  obtain ⟨vals, rfl⟩ := exists_map_b64Char hgood
  have hm : m = vals.length := List.length_map ..
  have hn : n = vals.length + p := by rw [← hm]; exact List.length_append.trans (congrArg _ List.length_replicate)
  rw [b64dec_map_b64Char, hn, hm]
  have hl {r : Nat} (hr : r ≠ 0) (hlen : vals.length % 4 = r) : last = vals.getLastD 0 := by
    have hne : vals ≠ [] := by rintro rfl; exact hr hlen.symm
    exact congrArg (fun v => v.getD 0) (b64Val_getLastD_map hne)
  refine ⟨fun hp => if_pos hp, fun hp h1 => ?_, fun hp h1 h0 h4 => ?_, fun hp h4 h2 hlow => ?_, fun hp h4 h3 hlow => ?_⟩
  all_goals rw [b64Checks, if_neg hp.not_gt]
  · rw [if_pos h1]
  · rw [if_neg h1, if_pos ⟨h0, h4⟩]
  · rw [if_neg (by omega), if_neg (by omega), if_pos ⟨h2, hl (by decide) h2 ▸ hlow⟩]
  · rw [if_neg (by omega), if_neg (by omega), if_neg (by omega), if_pos ⟨h3, hl (by decide) h3 ▸ hlow⟩]

/-! ## An encoding is canonical (R161, R164) -/

/-- The 6-bit values whose characters an encoding writes (R161). -/
def sextets : List Byte → List (BitVec 6)
  | [] => []
  | [x] => let v := x ++ 0x00#8 ++ 0x00#8; [v.extractLsb' 18 6, v.extractLsb' 12 6]
  | [x, y] => let v := x ++ y ++ 0x00#8; [v.extractLsb' 18 6, v.extractLsb' 12 6, v.extractLsb' 6 6]
  | x :: y :: z :: rest =>
    let v := x ++ y ++ z
    v.extractLsb' 18 6 :: v.extractLsb' 12 6 :: v.extractLsb' 6 6 :: v.extractLsb' 0 6 :: sextets rest

/-- The pads that fill the last group of n bytes up to four characters. -/
def padCount (n : Nat) : Nat := (3 - n % 3) % 3

theorem b64enc_eq (pad : Bool) (s : List Byte) :
    b64enc pad s = (sextets s).map b64Char ++ List.replicate (if pad then padCount s.length else 0) padChar := by
  induction s using b64enc.induct with
  | case1 => cases pad <;> rfl
  | case2 x => cases pad <;> rfl
  | case3 x y => cases pad <;> rfl
  | case4 x y z rest ih =>
    have hcount : padCount (rest.length + 1 + 1 + 1) = padCount rest.length := by simp only [padCount]; omega
    rw [b64enc, ih, sextets, List.length_cons, List.length_cons, List.length_cons, hcount]
    rfl

theorem length_sextets (s : List Byte) : (sextets s).length = s.length + (s.length + 2) / 3 := by
  induction s using sextets.induct with
  | case1 => rfl
  | case2 x => simp only [sextets, List.length_cons, List.length_nil, Nat.reduceAdd, Nat.reduceDiv]
  | case3 x y => simp only [sextets, List.length_cons, List.length_nil, Nat.reduceAdd, Nat.reduceDiv]
  | case4 x y z rest ih =>
    simp only [sextets, List.length_cons, ih]
    omega

/-! ### The bits of a group -/

/-- The two highest values of a group and its low 12 bits are the group. -/
theorem append_two_sextets (v : BitVec 24) :
    v.extractLsb' 18 6 ++ v.extractLsb' 12 6 ++ v.extractLsb' 0 12 = v := by
  have h2 : v.extractLsb' 18 6 ++ v.extractLsb' 12 6 = v.extractLsb' 12 12 :=
    BitVec.extractLsb'_append_extractLsb'_eq_extractLsb' rfl
  have h4 : v.extractLsb' 12 12 ++ v.extractLsb' 0 12 = v.extractLsb' 0 24 :=
    BitVec.extractLsb'_append_extractLsb'_eq_extractLsb' rfl
  rw [h2, h4, BitVec.extractLsb'_eq_self]

/-- The four values of a group are the group. -/
theorem append_sextets (v : BitVec 24) :
    v.extractLsb' 18 6 ++ v.extractLsb' 12 6 ++ v.extractLsb' 6 6 ++ v.extractLsb' 0 6 = v := by
  have hlow : v.extractLsb' 6 6 ++ v.extractLsb' 0 6 = v.extractLsb' 0 12 :=
    BitVec.extractLsb'_append_extractLsb'_eq_extractLsb' rfl
  conv_rhs => rw [← append_two_sextets v, ← hlow]
  exact BitVec.append_assoc

theorem b64Triple_append (x y z : Byte) : b64Triple (x ++ y ++ z) = [x, y, z] := by
  have hx : (x ++ y ++ z).extractLsb' 16 8 = x := by
    rw [BitVec.extractLsb'_append_eq_of_le (by decide)]
    exact BitVec.extractLsb'_append_eq_left
  have hy : (x ++ y ++ z).extractLsb' 8 8 = y := by
    rw [BitVec.extractLsb'_append_eq_of_le (by decide)]
    exact BitVec.extractLsb'_append_eq_right
  have hz : (x ++ y ++ z).extractLsb' 0 8 = z := BitVec.extractLsb'_append_eq_right
  rw [b64Triple, hx, hy, hz]

theorem low_bits_of_one (x : Byte) : (x ++ 0x00#8 ++ 0x00#8).extractLsb' 0 12 = 0#12 := by
  ext i hi
  simp only [BitVec.getElem_extractLsb', BitVec.getLsbD_append]
  grind

theorem low_bits_of_two (x y : Byte) : (x ++ y ++ 0x00#8).extractLsb' 0 6 = 0#6 := by
  ext i hi
  simp only [BitVec.getElem_extractLsb', BitVec.getLsbD_append]
  grind

theorem unused_bits_of_one (x : Byte) : (x ++ 0x00#8 ++ 0x00#8).extractLsb' 12 6 &&& 0x0F = 0 := by
  revert x
  decide +kernel

theorem unused_bits_of_two (x y : Byte) : (x ++ y ++ 0x00#8).extractLsb' 6 6 &&& 0x03 = 0 := by
  have hy : (x ++ y ++ 0x00#8).extractLsb' 6 6 = (y ++ 0x00#8).extractLsb' 6 6 := by
    ext i hi
    simp only [BitVec.getElem_extractLsb', BitVec.getLsbD_append]
    grind
  rw [hy]
  clear hy
  revert y
  decide +kernel

/-! ### Decoding an encoding -/

theorem b64Bytes_sextets (s : List Byte) : b64Bytes (sextets s) = s := by
  induction s using sextets.induct with
  | case1 => rfl
  | case2 x => rw [sextets, b64Bytes, ← low_bits_of_one x, append_two_sextets, b64Triple_append]; rfl
  | case3 x y => rw [sextets, b64Bytes, ← low_bits_of_two x y, append_sextets, b64Triple_append]; rfl
  | case4 x y z rest ih => rw [sextets, b64Bytes, append_sextets, b64Triple_append, ih]; rfl

/-- The last value of an encoding has its unused bits 0. -/
theorem unused_bits_sextets (s : List Byte) :
    ((sextets s).length % 4 = 2 → (sextets s).getLastD 0 &&& 0x0F = 0) ∧
      ((sextets s).length % 4 = 3 → (sextets s).getLastD 0 &&& 0x03 = 0) := by
  induction s using sextets.induct with
  | case1 => exact ⟨nofun, nofun⟩
  | case2 x => exact ⟨fun _ => unused_bits_of_one x, nofun⟩
  | case3 x y => exact ⟨nofun, fun _ => unused_bits_of_two x y⟩
  | case4 x y z rest ih =>
    rw [sextets]
    cases hr : sextets rest with
    | nil => exact ⟨fun h => absurd h (by simp), fun h => absurd h (by simp)⟩
    | cons w ws =>
      have hmod : (ws.length + 1 + 1 + 1 + 1 + 1) % 4 = (ws.length + 1) % 4 := by omega
      rw [hr] at ih
      simpa only [List.length_cons, hmod, List.getLastD_cons] using ih

theorem canonical_sextets (s : List Byte) (pad : Bool) :
    Canonical (sextets s) (if pad then padCount s.length else 0) := by
  have hlen := length_sextets s
  obtain ⟨h2, h3⟩ := unused_bits_sextets s
  cases pad
  · exact ⟨Nat.zero_le 2, by omega, fun h0 => absurd h0 (Nat.lt_irrefl 0), h2, h3⟩
  · refine ⟨?_, by omega, fun h0 => ?_, h2, h3⟩ <;> simp only [if_true, padCount] at * <;> omega

theorem b64dec_b64enc (s : List Byte) (pad : Bool) : b64dec (b64enc pad s) = .ok s := by
  rw [b64enc_eq, b64dec_map_b64Char, b64Checks_of_canonical (canonical_sextets s pad), b64Bytes_sextets]

theorem length_b64Bytes (vals : List (BitVec 6)) :
    (b64Bytes vals).length = 3 * (vals.length / 4) +
      (if vals.length % 4 = 2 then 1 else if vals.length % 4 = 3 then 2 else 0) := by
  induction vals using b64Bytes.induct with
  | case1 a b c d rest ih =>
    have hdiv : (rest.length + 1 + 1 + 1 + 1) / 4 = rest.length / 4 + 1 := by omega
    have hmod : (rest.length + 1 + 1 + 1 + 1) % 4 = rest.length % 4 := by omega
    simp only [b64Bytes, List.length_append, List.length_cons, ih, hdiv, hmod, b64Triple, List.length_nil]
    omega
  | case2 a b c => simp [b64Bytes, b64Triple]
  | case3 a b => simp [b64Bytes, b64Triple]
  | case4 a => simp [b64Bytes]
  | case5 => rfl

/-- Settles O41: the alphabet; an encoding is the text of its canonical values, which give its bytes back; and the length
of what the values give. -/
theorem base64RoundTripAndLength : Obligations.Base64RoundTripAndLength := by
  refine ⟨toNat_b64Char, b64Val_eq_some_iff, isB64_iff, rfl, b64dec_b64enc, fun s body out p hs hout => ?_⟩
  obtain ⟨rfl, hgood⟩ := hs
  obtain ⟨vals, rfl⟩ := exists_map_b64Char hgood
  rw [b64dec_map_b64Char] at hout
  rw [(canonical_of_b64Checks hout).2, length_b64Bytes, List.length_map]


end Sys2Proof.Proofs
end

section
/-! The pattern of the human text (41_codec.md R172), field by field: a parser of one field ends at the first byte that
the field cannot take, and so does a chain of them. `hparse` is such a chain after the fixed "tss~v1~". -/

namespace Sys2Proof.Proofs

open Sys2Proof.Machine Sys2Proof.Statements Sys2Proof.Laws

/-! ## Runs of a class -/

section
variable {α : Type} {cls : α → Bool}

/-- Every sequence is a run of the class, and then ends or goes on with a byte outside it. -/
theorem run_cases (cls : α → Bool) (s : List α) :
    ∃ w, (∀ x ∈ w, cls x = true) ∧ (s = w ∨ ∃ c rest, cls c = false ∧ s = w ++ c :: rest) := by
  induction s with
  | nil => exact ⟨[], nofun, .inl rfl⟩
  | cons x s ih =>
    cases hx : cls x with
    | false => exact ⟨[], nofun, .inr ⟨x, s, hx, rfl⟩⟩
    | true =>
      obtain ⟨w, hw, hs⟩ := ih
      refine ⟨x :: w, List.forall_mem_cons.mpr ⟨hx, hw⟩, ?_⟩
      rcases hs with rfl | ⟨c, rest, hc, rfl⟩
      · exact .inl rfl
      · exact .inr ⟨c, rest, hc, rfl⟩

theorem takeWhile_run {w : List α} (hw : ∀ x ∈ w, cls x = true) : w.takeWhile cls = w :=
  List.takeWhile_eq_self_iff.mpr hw

theorem takeWhile_run_cons {w rest : List α} {c : α} (hw : ∀ x ∈ w, cls x = true) (hc : cls c = false) :
    (w ++ c :: rest).takeWhile cls = w := by
  rw [List.takeWhile_append_of_pos hw, List.takeWhile_cons_of_neg (by rw [hc]; decide), List.append_nil]

/-- A run and the byte that ends it are read in one way. -/
theorem run_cons_inj {w w' rest rest' : List α} {c c' : α} (hw : ∀ x ∈ w, cls x = true) (hc : cls c = false)
    (hw' : ∀ x ∈ w', cls x = true) (hc' : cls c' = false) (h : w ++ c :: rest = w' ++ c' :: rest') :
    w = w' ∧ c = c' ∧ rest = rest' := by
  obtain rfl : w = w' := by rw [← takeWhile_run_cons hw hc, h, takeWhile_run_cons hw' hc']
  exact ⟨rfl, List.cons.inj (List.append_cancel_left h)⟩

end

/-! ## Parsers that fail at the first bad byte -/

/-- What a parser of R172 answers: the offset of the Base64 part, or the offset of the failure. -/
abbrev Parser := List Byte → Except Nat Nat

def Accepts (P : Parser) (s : List Byte) : Prop := ∃ q, P s = .ok q

/-- Offset k is that of the first byte with which the text cannot be completed, or the length of a text that could be. -/
def FailsAt (P : Parser) (s : List Byte) (k : Nat) : Prop :=
  k ≤ s.length ∧ (∃ u, Accepts P (s.take k ++ u)) ∧ (k = s.length ∨ ∀ u, ¬ Accepts P (s.take (k + 1) ++ u))

/-- The offset of every failure is that of the first bad byte, or the text's length. -/
def FailsFirst (P : Parser) : Prop := ∀ s k, P s = .error k → FailsAt P s k

/-- A text that ends too early fails at its length. -/
theorem failsAt_length {P : Parser} {s : List Byte} (h : ∃ u, Accepts P (s ++ u)) : FailsAt P s s.length :=
  ⟨le_rfl, by rwa [List.take_length], .inl rfl⟩

/-- A text whose bytes before c can be completed, but not with c, fails there. -/
theorem failsAt_append_cons {P : Parser} {s rest : List Byte} {c : Byte} (h : ∃ u, Accepts P (s ++ u))
    (hc : ∀ u, ¬ Accepts P (s ++ c :: u)) : FailsAt P (s ++ c :: rest) s.length := by
  refine ⟨by rw [List.length_append]; omega, by rwa [List.take_left], .inr fun u => ?_⟩
  have htake : (s ++ c :: rest).take (s.length + 1) = s ++ [c] := by simp [List.take_append]
  rw [htake, List.append_assoc]
  exact hc u

/-- The answer of a parser that starts at offset k. -/
def shift (k : Nat) : Except Nat Nat → Except Nat Nat
  | .ok q => .ok (k + q)
  | .error q => .error (k + q)

theorem shift_ite {p : Prop} [Decidable p] (k : Nat) (x y : Except Nat Nat) :
    shift k (if p then x else y) = if p then shift k x else shift k y := apply_ite ..

theorem shift_eq_ok_iff {k q : Nat} {x : Except Nat Nat} : shift k x = .ok q ↔ ∃ q', x = .ok q' ∧ q = k + q' := by
  cases x <;> simp [shift, eq_comm]

theorem shift_eq_error_iff {k q : Nat} {x : Except Nat Nat} : shift k x = .error q ↔ ∃ q', x = .error q' ∧ q = k + q' := by
  cases x <;> simp [shift, eq_comm]

/-! ## A field and the `~` after it -/

/-- From `lo` to `hi` bytes of a class, then `~`, then `next`. -/
def fieldParser (cls : Byte → Bool) (lo hi : Nat) (next : Parser) : Parser := fun s =>
  let r := (s.takeWhile cls).length
  if hi < r then .error hi
  else if r < lo then .error r
  else if s[r]? ≠ some tilde then .error r
  else shift (r + 1) (next (s.drop (r + 1)))

section
variable {cls : Byte → Bool} {lo hi : Nat} {next : Parser} {w : List Byte} (hw : ∀ x ∈ w, cls x = true)
include hw

theorem fieldParser_run : fieldParser cls lo hi next w = .error (if hi < w.length then hi else w.length) := by
  simp only [fieldParser, takeWhile_run hw, List.getElem?_length, ne_eq, reduceCtorEq, not_false_eq_true, if_true,
    ite_self]
  exact (apply_ite ..).symm

theorem fieldParser_run_cons {c : Byte} (hc : cls c = false) (rest : List Byte) :
    fieldParser cls lo hi next (w ++ c :: rest) =
      if hi < w.length then .error hi
      else if w.length < lo ∨ c ≠ tilde then .error w.length
      else shift (w.length + 1) (next rest) := by
  have hget : (w ++ c :: rest)[w.length]? = some c := by simp
  have hdrop : (w ++ c :: rest).drop (w.length + 1) = rest := by simp
  simp only [fieldParser, takeWhile_run_cons hw hc, hget, hdrop, ne_eq, Option.some.injEq, ite_or]

end

theorem fieldParser_eq_ok_iff {cls : Byte → Bool} {lo hi : Nat} {next : Parser} (htilde : cls tilde = false)
    {s : List Byte} {q : Nat} :
    fieldParser cls lo hi next s = .ok q ↔
      ∃ w rest q', s = w ++ tilde :: rest ∧ (∀ x ∈ w, cls x = true) ∧ lo ≤ w.length ∧ w.length ≤ hi ∧
        next rest = .ok q' ∧ q = w.length + 1 + q' := by
  constructor
  · intro h
    obtain ⟨w, hw, rfl | ⟨c, rest, hc, rfl⟩⟩ := run_cases cls s
    · rw [fieldParser_run hw] at h
      cases h
    · rw [fieldParser_run_cons hw hc] at h
      split_ifs at h with hhi hlo
      obtain ⟨hle, heq⟩ := not_or.mp hlo
      obtain rfl := not_not.mp heq
      obtain ⟨q', hq', rfl⟩ := shift_eq_ok_iff.mp h
      exact ⟨w, rest, q', rfl, hw, not_lt.mp hle, not_lt.mp hhi, hq', rfl⟩
  · rintro ⟨w, rest, q', rfl, hw, hlo, hhi, hq', rfl⟩
    rw [fieldParser_run_cons hw htilde, if_neg hhi.not_gt, if_neg (not_or.mpr ⟨hlo.not_gt, not_not_intro rfl⟩), hq',
      shift]

theorem accepts_fieldParser_iff {cls : Byte → Bool} {lo hi : Nat} {next : Parser} (htilde : cls tilde = false)
    {s : List Byte} :
    Accepts (fieldParser cls lo hi next) s ↔
      ∃ w rest, s = w ++ tilde :: rest ∧ (∀ x ∈ w, cls x = true) ∧ lo ≤ w.length ∧ w.length ≤ hi ∧
        Accepts next rest := by
  simp only [Accepts, fieldParser_eq_ok_iff htilde]
  constructor
  · rintro ⟨q, w, rest, q', hs, hw, hlo, hhi, hq', -⟩
    exact ⟨w, rest, hs, hw, hlo, hhi, q', hq'⟩
  · rintro ⟨w, rest, hs, hw, hlo, hhi, q', hq'⟩
    exact ⟨_, w, rest, q', hs, hw, hlo, hhi, hq', rfl⟩

section
variable {cls : Byte → Bool} {lo hi : Nat} {next : Parser} (htilde : cls tilde = false) {w : List Byte}
  (hw : ∀ x ∈ w, cls x = true)
include htilde hw

/-- A run that is not too long can be completed, if the class has a byte `d` to fill it up with. -/
theorem fieldParser_completable {d : Byte} (hd : cls d = true) (hle : lo ≤ hi) (hnext : ∃ u, Accepts next u)
    (hhi : w.length ≤ hi) : ∃ u, Accepts (fieldParser cls lo hi next) (w ++ u) := by
  obtain ⟨u, hu⟩ := hnext
  refine ⟨List.replicate (lo - w.length) d ++ tilde :: u, (accepts_fieldParser_iff htilde).mpr
    ⟨w ++ List.replicate (lo - w.length) d, u, (List.append_assoc ..).symm, fun x hx => ?_, ?_, ?_, hu⟩⟩
  · rcases List.mem_append.mp hx with hx | hx
    · exact hw x hx
    · rwa [List.eq_of_mem_replicate hx]
  all_goals rw [List.length_append, List.length_replicate]; omega

/-- A run that is too long cannot be completed. -/
theorem not_accepts_of_long_run (hhi : hi < w.length) (u : List Byte) :
    ¬ Accepts (fieldParser cls lo hi next) (w ++ u) := by
  rw [accepts_fieldParser_iff htilde]
  rintro ⟨w', rest, hs, hw', -, hhi', -⟩
  have htake := congrArg (List.takeWhile cls) hs
  rw [takeWhile_run_cons hw' htilde, List.takeWhile_append_of_pos hw] at htake
  have hlen := congrArg List.length htake
  rw [List.length_append] at hlen
  omega

/-- A run that is too short, or that ends in no `~`, cannot be completed. -/
theorem not_accepts_of_bad_end {c : Byte} (hc : cls c = false) (hbad : w.length < lo ∨ c ≠ tilde) (u : List Byte) :
    ¬ Accepts (fieldParser cls lo hi next) (w ++ c :: u) := by
  rw [accepts_fieldParser_iff htilde]
  rintro ⟨w', rest, hs, hw', hlo, -, -⟩
  obtain ⟨rfl, rfl, rfl⟩ := run_cons_inj hw hc hw' htilde hs
  exact hbad.elim hlo.not_gt (fun hne => hne rfl)

/-- Past a whole field, what can be completed is what `next` can complete. -/
theorem accepts_fieldParser_run_iff (hlo : lo ≤ w.length) (hhi : w.length ≤ hi) (u : List Byte) :
    Accepts (fieldParser cls lo hi next) (w ++ tilde :: u) ↔ Accepts next u := by
  rw [accepts_fieldParser_iff htilde]
  constructor
  · rintro ⟨w', rest, hs, hw', -, -, hrest⟩
    obtain ⟨-, -, rfl⟩ := run_cons_inj hw htilde hw' htilde hs
    exact hrest
  · exact fun hu => ⟨w, u, rfl, hw, hlo, hhi, hu⟩

end

theorem fieldParser_failsFirst {cls : Byte → Bool} {lo hi : Nat} {next : Parser} (htilde : cls tilde = false) {d : Byte}
    (hd : cls d = true) (hle : lo ≤ hi) (hnext : ∃ u, Accepts next u) (h : FailsFirst next) :
    FailsFirst (fieldParser cls lo hi next) := by
  have hfill {w : List Byte} (hw : ∀ x ∈ w, cls x = true) (hhi : w.length ≤ hi) :
      ∃ u, Accepts (fieldParser cls lo hi next) (w ++ u) := fieldParser_completable htilde hw hd hle hnext hhi
  have hlong {w v : List Byte} (hw : ∀ x ∈ w, cls x = true) (hhi : hi < w.length) :
      FailsAt (fieldParser cls lo hi next) (w ++ v) hi := by
    have hpart (n : Nat) : ∀ x ∈ w.take n, cls x = true := fun x hx => hw x (List.mem_of_mem_take hx)
    refine ⟨by rw [List.length_append]; omega, ?_, .inr fun u => ?_⟩
    · rw [List.take_append_of_le_length hhi.le]
      exact hfill (hpart hi) (List.length_take_le ..)
    · rw [List.take_append_of_le_length hhi]
      exact not_accepts_of_long_run htilde (hpart (hi + 1)) (by rw [List.length_take]; omega) u
  intro s k hs
  obtain ⟨w, hw, rfl | ⟨c, rest, hc, rfl⟩⟩ := run_cases cls s
  · rw [fieldParser_run hw] at hs
    obtain rfl := Except.error.inj hs
    split_ifs with hhi
    · exact List.append_nil s ▸ hlong hw hhi
    · exact failsAt_length (hfill hw (not_lt.mp hhi))
  · rw [fieldParser_run_cons hw hc] at hs
    split_ifs at hs with hhi hbad
    · obtain rfl := Except.error.inj hs
      exact hlong hw hhi
    · obtain rfl := Except.error.inj hs
      exact failsAt_append_cons (hfill hw (not_lt.mp hhi)) (not_accepts_of_bad_end htilde hw hc hbad)
    · obtain ⟨hlo, heq⟩ := not_or.mp hbad
      obtain rfl := not_not.mp heq
      obtain ⟨k', hk', rfl⟩ := shift_eq_error_iff.mp hs
      have htake (n : Nat) : (w ++ tilde :: rest).take (w.length + 1 + n) = w ++ tilde :: rest.take n := by
        simp [List.take_append, Nat.add_assoc, Nat.add_comm 1 n]
      have hiff := accepts_fieldParser_run_iff (next := next) htilde hw (not_lt.mp hlo) (not_lt.mp hhi)
      obtain ⟨hk, ⟨u, hu⟩, hfirst⟩ := h rest k' hk'
      refine ⟨?_, ⟨u, ?_⟩, hfirst.imp ?_ fun hnot u => ?_⟩
      · rw [List.length_append, List.length_cons]; omega
      · rw [htake, List.append_assoc]
        exact (hiff _).mpr hu
      · rw [List.length_append, List.length_cons]; omega
      · rw [Nat.add_assoc, htake, List.append_assoc]
        exact mt (hiff _).mp (hnot u)

/-! ## The Base64 part -/

/-- One or more alphabet bytes, up to two pads, and the end of the text. -/
def bodyParser : Parser := fun s =>
  let chars := (s.takeWhile isB64).length
  if chars = 0 then .error 0
  else
    let pads := ((s.drop chars).takeWhile (· == padChar)).length
    if 2 < pads then .error (chars + 2) else if chars + pads ≠ s.length then .error (chars + pads) else .ok 0

/-- What stands after p pads starts with no pad, and after none with no alphabet byte. -/
def EndsPads (p : Nat) (tail : List Byte) : Prop := ∀ c ∈ tail.head?, c ≠ padChar ∧ (p = 0 → isB64 c = false)

/-- Every text is pads and what stands after them. -/
theorem pads_cases (s : List Byte) :
    ∃ p tail, s = List.replicate p padChar ++ tail ∧ ∀ c ∈ tail.head?, c ≠ padChar := by
  obtain ⟨pads, hpads, hend⟩ := run_cases (· == padChar) s
  have hrep : pads = List.replicate pads.length padChar :=
    List.eq_replicate_of_mem fun x hx => beq_iff_eq.mp (hpads x hx)
  rcases hend with rfl | ⟨c, rest, hc, rfl⟩
  · exact ⟨s.length, [], hrep.trans (List.append_nil _).symm, nofun⟩
  · refine ⟨pads.length, c :: rest, congrArg (· ++ c :: rest) hrep, fun x hx => ?_⟩
    cases hx
    exact beq_eq_false_iff_ne.mp hc

/-- Every text is alphabet bytes, pads, and what stands after them. -/
theorem body_cases (s : List Byte) :
    ∃ body p tail, (∀ x ∈ body, isB64 x = true) ∧ EndsPads p tail ∧ s = body ++ List.replicate p padChar ++ tail := by
  obtain ⟨body, hbody, rfl | ⟨c, rest, hc, rfl⟩⟩ := run_cases isB64 s
  · exact ⟨s, 0, [], hbody, nofun, by simp⟩
  · obtain ⟨p, tail, heq, htail⟩ := pads_cases (c :: rest)
    refine ⟨body, p, tail, hbody, fun x hx => ⟨htail x hx, ?_⟩, by rw [heq, List.append_assoc]⟩
    rintro rfl
    obtain rfl : c :: rest = tail := heq
    cases hx
    exact hc

/-- After an alphabet run stands no alphabet byte. -/
theorem head_not_isB64 {p : Nat} {tail : List Byte} (h : EndsPads p tail) :
    ∀ c ∈ (List.replicate p padChar ++ tail).head?, isB64 c = false := fun c hc => by
  cases p with
  | zero => exact (h c hc).2 rfl
  | succ p => cases hc; decide

theorem takeWhile_eq_nil {α : Type} {cls : α → Bool} {s : List α} (h : ∀ c ∈ s.head?, cls c = false) :
    s.takeWhile cls = [] := by
  cases s with
  | nil => rfl
  | cons c s => exact List.takeWhile_cons_of_neg (by rw [h c rfl]; decide)

section
variable {body tail : List Byte} {p : Nat} (hbody : ∀ x ∈ body, isB64 x = true) (htail : EndsPads p tail)
include hbody htail

theorem bodyParser_eq : bodyParser (body ++ List.replicate p padChar ++ tail) =
    if body.length = 0 then .error 0
    else if 2 < p then .error (body.length + 2)
    else if tail ≠ [] then .error (body.length + p)
    else .ok 0 := by
  have hchars : (body ++ List.replicate p padChar ++ tail).takeWhile isB64 = body := by
    rw [List.append_assoc, List.takeWhile_append_of_pos hbody, takeWhile_eq_nil (head_not_isB64 htail),
      List.append_nil]
  have hpads : ((body ++ List.replicate p padChar ++ tail).drop body.length).takeWhile (· == padChar) =
      List.replicate p padChar := by
    rw [List.append_assoc, List.drop_left,
      List.takeWhile_append_of_pos fun x hx => by rw [List.eq_of_mem_replicate hx]; rfl,
      takeWhile_eq_nil fun c hc => by simpa using (htail c hc).1, List.append_nil]
  have hend : body.length + p ≠ (body ++ List.replicate p padChar ++ tail).length ↔ tail ≠ [] := by
    rw [List.length_append, List.length_append, List.length_replicate, ← List.length_pos_iff]; omega
  simp only [bodyParser, hchars, hpads, List.length_replicate, if_congr hend rfl rfl]

end

theorem bodyParser_eq_ok_iff {s : List Byte} {q : Nat} :
    bodyParser s = .ok q ↔
      q = 0 ∧ ∃ body p, s = body ++ List.replicate p padChar ∧ 1 ≤ body.length ∧ (∀ x ∈ body, isB64 x = true) ∧ p ≤ 2 := by
  constructor
  · intro h
    obtain ⟨body, p, tail, hbody, htail, rfl⟩ := body_cases s
    rw [bodyParser_eq hbody htail] at h
    split_ifs at h with h0 hp ht
    exact ⟨(Except.ok.inj h).symm, body, p, by rw [not_not.mp ht, List.append_nil], Nat.pos_of_ne_zero h0, hbody,
      not_lt.mp hp⟩
  · rintro ⟨rfl, body, p, rfl, h1, hbody, hp⟩
    rw [← List.append_nil (body ++ _), bodyParser_eq (tail := []) hbody nofun, if_neg (by omega), if_neg hp.not_gt,
      if_neg (not_not_intro rfl)]

theorem accepts_bodyParser {body : List Byte} {p : Nat} (hbody : ∀ x ∈ body, isB64 x = true) (h1 : body.length ≠ 0)
    (hp : p ≤ 2) : ∃ u, Accepts bodyParser (body ++ List.replicate p padChar ++ u) :=
  ⟨[], 0, bodyParser_eq_ok_iff.mpr ⟨rfl, body, p, List.append_nil _, Nat.pos_of_ne_zero h1, hbody, hp⟩⟩

theorem not_accepts_of_not_isB64 {c : Byte} (hc : isB64 c = false) (u : List Byte) : ¬ Accepts bodyParser (c :: u) := by
  rintro ⟨q, hq⟩
  rw [bodyParser, List.takeWhile_cons_of_neg (by rw [hc]; decide), List.length_nil] at hq
  cases hq

section
variable {body : List Byte} (hbody : ∀ x ∈ body, isB64 x = true) (h0 : body.length ≠ 0)
include hbody h0

theorem not_accepts_of_three_pads (u : List Byte) :
    ¬ Accepts bodyParser (body ++ List.replicate 2 padChar ++ padChar :: u) := by
  obtain ⟨n, tail, rfl, htail⟩ := pads_cases u
  have hpads : body ++ List.replicate 2 padChar ++ padChar :: (List.replicate n padChar ++ tail) =
      body ++ List.replicate (n + 3) padChar ++ tail := by
    simp [List.replicate_succ]
  rintro ⟨q, hq⟩
  rw [hpads, bodyParser_eq (p := n + 3) (tail := tail) hbody fun c hc => ⟨htail c hc, nofun⟩, if_neg h0,
    if_pos (by omega)] at hq
  cases hq

theorem not_accepts_of_tail {p : Nat} {c : Byte} {rest : List Byte} (htail : EndsPads p (c :: rest)) (hp : p ≤ 2)
    (u : List Byte) : ¬ Accepts bodyParser (body ++ List.replicate p padChar ++ c :: u) := by
  have hu : EndsPads p (c :: u) := fun x hx => htail x hx
  rintro ⟨q, hq⟩
  rw [bodyParser_eq hbody hu, if_neg h0, if_neg hp.not_gt, if_pos (List.cons_ne_nil c u)] at hq
  cases hq

end

theorem bodyParser_failsFirst : FailsFirst bodyParser := by
  intro s k hs
  obtain ⟨body, p, tail, hbody, htail, rfl⟩ := body_cases s
  rw [bodyParser_eq hbody htail] at hs
  split_ifs at hs with h0 hp ht
  all_goals obtain rfl := Except.error.inj hs
  · obtain rfl := List.eq_nil_of_length_eq_zero h0
    have hsome : ∃ u, Accepts bodyParser ([] ++ u) :=
      ⟨[0x41], 0, bodyParser_eq_ok_iff.mpr ⟨rfl, [0x41], 0, rfl, le_rfl, by decide, by decide⟩⟩
    have hhead := head_not_isB64 htail
    rw [List.nil_append]
    generalize List.replicate p padChar ++ tail = s at hhead
    cases s with
    | nil => exact failsAt_length hsome
    | cons c rest => exact failsAt_append_cons (s := []) hsome (not_accepts_of_not_isB64 (hhead c rfl))
  · obtain ⟨n, rfl⟩ := Nat.exists_eq_add_of_le' hp
    have hpads : body ++ List.replicate (n + 3) padChar ++ tail =
        body ++ List.replicate 2 padChar ++ padChar :: (List.replicate n padChar ++ tail) := by
      simp [List.replicate_succ]
    have hlen : body.length + 2 = (body ++ List.replicate 2 padChar).length := by simp
    rw [hpads, hlen]
    exact failsAt_append_cons (accepts_bodyParser hbody h0 le_rfl) (not_accepts_of_three_pads hbody h0)
  · obtain ⟨c, rest, rfl⟩ := List.exists_cons_of_ne_nil ht
    have hlen : body.length + p = (body ++ List.replicate p padChar).length := by simp
    rw [hlen]
    exact failsAt_append_cons (accepts_bodyParser hbody h0 (not_lt.mp hp))
      (not_accepts_of_tail hbody h0 htail (not_lt.mp hp))

/-! ## The whole pattern -/

/-- The fields after "tss~v1~": the identifier, the threshold and the Base64 part. -/
def fieldsParser : Parser := fieldParser inIdset 0 16 (fieldParser isDigit 1 3 bodyParser)

theorem exists_accepts_bodyParser : ∃ u, Accepts bodyParser u :=
  ⟨[0x41], 0, by rfl⟩

theorem digits_failsFirst : FailsFirst (fieldParser isDigit 1 3 bodyParser) :=
  fieldParser_failsFirst (d := 0x30) (by decide) (by decide) (by decide) exists_accepts_bodyParser bodyParser_failsFirst

theorem exists_accepts_digits : ∃ u, Accepts (fieldParser isDigit 1 3 bodyParser) u :=
  fieldParser_completable (w := []) (d := 0x30) (by decide) nofun (by decide) (by decide) exists_accepts_bodyParser
    (by decide)

theorem fieldsParser_failsFirst : FailsFirst fieldsParser :=
  fieldParser_failsFirst (d := 0x61) (by decide) (by decide) (by decide) exists_accepts_digits digits_failsFirst

theorem exists_accepts_fieldsParser : ∃ u, Accepts fieldsParser u :=
  fieldParser_completable (w := []) (d := 0x61) (by decide) nofun (by decide) (by decide) exists_accepts_digits
    (by decide)

theorem shift_shift (m n : Nat) (x : Except Nat Nat) : shift m (shift n x) = shift (m + n) x := by
  cases x <;> simp [shift, Nat.add_assoc]

/-- A field read at offset m of a text, with the runs and offsets of the text itself. -/
theorem shift_fieldParser (cls : Byte → Bool) (lo hi : Nat) (next : Parser) (s : List Byte) (m : Nat) :
    shift m (fieldParser cls lo hi next (s.drop m)) =
      if hi < runLength cls s m then .error (m + hi)
      else if runLength cls s m < lo then .error (m + runLength cls s m)
      else if s[m + runLength cls s m]? ≠ some tilde then .error (m + runLength cls s m)
      else shift (m + runLength cls s m + 1) (next (s.drop (m + runLength cls s m + 1))) := by
  simp only [fieldParser, runLength, shift_ite, shift_shift, List.getElem?_drop, List.drop_drop, Nat.add_assoc]
  rfl

/-- The Base64 part read at offset m of a text. -/
theorem shift_bodyParser {s : List Byte} {m : Nat} (hm : m ≤ s.length) :
    shift m (bodyParser (s.drop m)) =
      if runLength isB64 s m = 0 then .error (m + runLength isB64 s m)
      else if 2 < runLength (· == padChar) s (m + runLength isB64 s m) then .error (m + runLength isB64 s m + 2)
      else if m + runLength isB64 s m + runLength (· == padChar) s (m + runLength isB64 s m) ≠ s.length then
        .error (m + runLength isB64 s m + runLength (· == padChar) s (m + runLength isB64 s m))
      else .ok m := by
  have hend (n : Nat) : n ≠ s.length - m ↔ m + n ≠ s.length := by omega
  simp only [bodyParser, runLength, shift_ite, List.drop_drop, List.length_drop, hend, Nat.add_assoc]
  exact ite_congr rfl (fun h => congrArg (fun n => Except.error (m + n)) h.symm) fun _ => rfl

/-- After "tss~v1~", `hparse` reads the fields one after another. -/
theorem hparse_of_prefix {s : List Byte} (h : prefixError humanPrefix s = none) :
    hparse s = shift 7 (fieldsParser (s.drop 7)) := by
  simp only [hparse, h, fieldsParser, shift_fieldParser, Nat.not_lt_zero, if_false, Nat.lt_one_iff]
  refine ite_congr rfl (fun _ => rfl) fun _ => ite_congr rfl (fun _ => rfl) fun _ => ite_congr rfl (fun _ => rfl)
    fun _ => ite_congr rfl (fun _ => rfl) fun _ => ite_congr rfl (fun _ => rfl) fun htilde => ?_
  obtain ⟨hlt, -⟩ := List.getElem?_eq_some_iff.mp (not_not.mp htilde)
  exact (shift_bodyParser hlt).symm

/-- No position fails exactly when the text starts with `pre`. -/
theorem prefixError_eq_none_iff {pre s : List Byte} : prefixError pre s = none ↔ pre <+: s := by
  simp only [prefixError, List.find?_eq_none, List.mem_range, ne_eq, decide_eq_true_eq, not_not,
    List.prefix_iff_getElem?]
  exact forall₂_congr fun k hk => by rw [List.getElem?_eq_getElem hk]

theorem prefixError_append (pre rest : List Byte) : prefixError pre (pre ++ rest) = none :=
  prefixError_eq_none_iff.mpr (List.prefix_append ..)

/-- The position that fails is inside `pre`, the first with another byte than `pre` has there, or the text's
end. -/
theorem of_prefixError_eq_some {pre s : List Byte} {k : Nat} (h : prefixError pre s = some k) :
    k < pre.length ∧ k ≤ s.length ∧ s.take k = pre.take k ∧ s[k]? ≠ pre[k]? := by
  simp only [prefixError, List.find?_range_eq_some, ne_eq, decide_eq_true_eq, List.mem_range, Bool.not_eq_true',
    decide_eq_false_iff_not, not_not] at h
  obtain ⟨hk, hlt, hbefore⟩ := h
  have htake : s.take k = pre.take k := List.ext_getElem? fun j => by
    simp only [List.getElem?_take]
    split_ifs with hj
    · exact hbefore j hj
    · rfl
  have hlen := congrArg List.length htake
  rw [List.length_take, List.length_take] at hlen
  exact ⟨hlt, by omega, htake, hk⟩

theorem hparse_append_humanPrefix (rest : List Byte) : hparse (humanPrefix ++ rest) = shift 7 (fieldsParser rest) :=
  hparse_of_prefix (prefixError_append ..)

theorem hparse_of_prefixError {s : List Byte} {k : Nat} (h : prefixError humanPrefix s = some k) :
    hparse s = .error k := by
  rw [hparse, h]

/-- An accepted text is "tss~v1~" and accepted fields. -/
theorem hparse_eq_ok_iff {s : List Byte} {q : Nat} :
    hparse s = .ok q ↔ ∃ rest q', s = humanPrefix ++ rest ∧ fieldsParser rest = .ok q' ∧ q = 7 + q' := by
  constructor
  · intro h
    cases hp : prefixError humanPrefix s with
    | some k => cases (hparse_of_prefixError hp).symm.trans h
    | none =>
      obtain ⟨rest, rfl⟩ := prefixError_eq_none_iff.mp hp
      rw [hparse_append_humanPrefix] at h
      obtain ⟨q', hq', rfl⟩ := shift_eq_ok_iff.mp h
      exact ⟨rest, q', rfl, hq', rfl⟩
  · rintro ⟨rest, q', rfl, hq', rfl⟩
    rw [hparse_append_humanPrefix, hq', shift]

theorem accepts_hparse_append_iff (rest : List Byte) : Accepts hparse (humanPrefix ++ rest) ↔ Accepts fieldsParser rest := by
  simp only [Accepts, hparse_append_humanPrefix, shift_eq_ok_iff]
  exact ⟨fun ⟨_, q', h, _⟩ => ⟨q', h⟩, fun ⟨q', h⟩ => ⟨_, q', h, rfl⟩⟩

theorem hparse_failsFirst : FailsFirst hparse := by
  intro s k hs
  cases hp : prefixError humanPrefix s with
  | some k' =>
    obtain rfl : k' = k := Except.error.inj ((hparse_of_prefixError hp).symm.trans hs)
    obtain ⟨hlt, hk, htake, hbad⟩ := of_prefixError_eq_some hp
    obtain ⟨u, hu⟩ := exists_accepts_fieldsParser
    refine ⟨hk, ⟨humanPrefix.drop k' ++ u, ?_⟩, ?_⟩
    · rw [htake, ← List.append_assoc, List.take_append_drop]
      exact (accepts_hparse_append_iff u).mpr hu
    · refine hk.eq_or_lt.imp_right fun hks v => ?_
      rintro ⟨q, hq⟩
      obtain ⟨rest, -, heq, -⟩ := hparse_eq_ok_iff.mp hq
      have hget := congrArg (·[k']?) heq
      simp only [List.getElem?_append_left hlt] at hget
      rw [List.getElem?_append_left (by rw [List.length_take]; omega), List.getElem?_take_of_lt (by omega)] at hget
      exact hbad hget
  | none =>
    obtain ⟨rest, rfl⟩ := prefixError_eq_none_iff.mp hp
    rw [hparse_append_humanPrefix] at hs
    obtain ⟨k', hk', rfl⟩ := shift_eq_error_iff.mp hs
    have htake (n : Nat) : (humanPrefix ++ rest).take (7 + n) = humanPrefix ++ rest.take n :=
      List.take_length_add_append (l₁ := humanPrefix) n
    obtain ⟨hk, ⟨u, hu⟩, hfirst⟩ := fieldsParser_failsFirst rest k' hk'
    refine ⟨?_, ⟨u, ?_⟩, hfirst.imp ?_ fun hnot u => ?_⟩
    · exact (Nat.add_le_add_left hk 7).trans_eq (List.length_append (as := humanPrefix)).symm
    · rw [htake, List.append_assoc]
      exact (accepts_hparse_append_iff _).mpr hu
    · exact fun hk => (congrArg (7 + ·) hk).trans (List.length_append (as := humanPrefix)).symm
    · rw [Nat.add_assoc, htake, List.append_assoc]
      exact mt (accepts_hparse_append_iff _).mp (hnot u)

/-! ## The obligations -/

theorem isDigit_iff {x : Byte} : isDigit x = true ↔ 0x30 ≤ x.toNat ∧ x.toNat ≤ 0x39 := by
  simp only [isDigit, Bool.and_eq_true, decide_eq_true_eq]

/-- Settles O48: "tss~v1~", identifier, threshold and Base64 part are each read in one way. -/
theorem humanPatternAcceptsExactlyTheGrammar : Obligations.HumanPatternAcceptsExactlyTheGrammar := by
  intro s q0
  rw [hparse_eq_ok_iff]
  constructor
  · rintro ⟨rest, q, rfl, hq, rfl⟩
    obtain ⟨ident, rest, q, rfl, hident, -, h16, hq', rfl⟩ := (fieldParser_eq_ok_iff (by decide)).mp hq
    obtain ⟨digits, rest, q, rfl, hdigits, h1, h3, hq'', rfl⟩ := (fieldParser_eq_ok_iff (by decide)).mp hq'
    obtain ⟨rfl, body, p, rfl, hb1, hbody, hp⟩ := bodyParser_eq_ok_iff.mp hq''
    exact ⟨ident, digits, body, p, by simp [humanPrefix, tilde, padChar], h16, hident, h1, h3,
      fun x hx => isDigit_iff.mp (hdigits x hx), hb1, hbody, hp, by omega⟩
  · rintro ⟨ident, digits, body, p, rfl, h16, hident, h1, h3, hdigits, hb1, hbody, hp, rfl⟩
    have hq := bodyParser_eq_ok_iff.mpr ⟨rfl, body, p, rfl, hb1, hbody, hp⟩
    have hq := (fieldParser_eq_ok_iff (by decide)).mpr
      ⟨digits, _, 0, rfl, fun x hx => isDigit_iff.mpr (hdigits x hx), h1, h3, hq, rfl⟩
    have hq := (fieldParser_eq_ok_iff (by decide)).mpr ⟨ident, _, _, rfl, hident, Nat.zero_le _, h16, hq, rfl⟩
    exact ⟨_, _, by simp [humanPrefix, tilde, padChar], hq, by omega⟩

/-- What can be completed can be completed from every earlier offset. -/
theorem completable_take_of_le {P : Parser} {s : List Byte} {j k : Nat} (hjk : j ≤ k)
    (h : ∃ u, Accepts P (s.take k ++ u)) : ∃ u, Accepts P (s.take j ++ u) := by
  obtain ⟨u, hu⟩ := h
  refine ⟨(s.take k).drop j ++ u, ?_⟩
  have hsplit : s.take j ++ (s.take k).drop j = s.take k := by
    simpa only [List.take_take, min_eq_left hjk] using List.take_append_drop j (s.take k)
  rwa [← List.append_assoc, hsplit]

/-- A text fails at one offset at most. -/
theorem failsAt_unique {P : Parser} {s : List Byte} {j k : Nat} (hj : FailsAt P s j) (hk : FailsAt P s k) : j = k := by
  have hle {j k : Nat} (hj : FailsAt P s j) (hk : FailsAt P s k) : k ≤ j := by
    obtain ⟨-, -, hend⟩ := hj
    obtain ⟨hks, hcomp, -⟩ := hk
    by_contra hlt
    obtain ⟨u, hu⟩ := completable_take_of_le (not_le.mp hlt) hcomp
    exact hend.elim (fun h => by omega) (fun h => h u hu)
  exact le_antisymm (hle hk hj) (hle hj hk)

/-- Settles O49: every rejected text fails at the offset of its error, and at no other. -/
theorem humanPatternFailsAtTheFirstBadByte : Obligations.HumanPatternFailsAtTheFirstBadByte := by
  intro s k completable
  have hfails : FailsAt hparse s k ↔
      k ≤ s.length ∧ completable (s.take k) ∧ (k = s.length ∨ ¬ completable (s.take (k + 1))) := by
    simp only [FailsAt, completable, Accepts, not_exists]
  rw [← hfails]
  constructor
  · exact fun h => ⟨fun q0 => by rw [h]; nofun, hparse_failsFirst s k h⟩
  · rintro ⟨hno, hk⟩
    cases h : hparse s with
    | ok q0 => exact absurd h (hno q0)
    | error j => rw [failsAt_unique (hparse_failsFirst s j h) hk]

end Sys2Proof.Proofs
end

section
/-! HENC, then HDEC (41_codec.md R181): the text that HENC stored is one that `hparse` accepts, and its Base64 part is the
encoding of the share. -/

namespace Sys2Proof.Proofs

open Sys2Proof.Machine Sys2Proof.Statements Sys2Proof.Laws

/-- A HENC that completed has passed R176's checks. -/
theorem henc_checks {s t : State} {d a b c : Reg} {nopad : Bool} (ht : exec (.henc d a b c nopad) s = .next t)
    (hok : t.err = false) :
    20 ≤ (readReg s b).toNat ∧ InLmem (readReg s a) (readReg s b).toNat ∧
      IdentOK (readBytes s (readReg s a).toNat (readReg s b).toNat) := by
  have hraises := not_raises_of_completed ht hok
  obtain ⟨-, henc⟩ := hencEncodesAShare
  obtain ⟨-, hlen, hsrc, hident, -, -⟩ := henc s d a b c nopad
  have hn := not_lt.mp fun hn => hraises _ _ (hlen hn)
  have hs := not_not.mp fun hs => hraises _ _ (hsrc hn hs)
  refine ⟨hn, hs, fun q => ?_⟩
  induction q using Nat.strong_induction_on with
  | h q ih =>
    intro hq
    by_contra hbad
    exact hraises _ _ (hident hn hs q hq (by simpa using hbad) fun q' hq' => ih q' hq' (hq'.trans hq))

theorem isB64_of_mem_map {vals : List (BitVec 6)} {x : Byte} (hx : x ∈ vals.map b64Char) : isB64 x = true := by
  obtain ⟨v, -, rfl⟩ := List.mem_map.mp hx
  exact isB64_b64Char v

theorem decimal_range {t x : Byte} (hx : x ∈ decimal t) : 0x30 ≤ x.toNat ∧ x.toNat ≤ 0x39 := by
  obtain ⟨htext, -⟩ := hencEncodesAShare
  obtain ⟨-, -, -, hdigits, -⟩ := htext t
  exact hdigits x hx

/-- A share's text is accepted, and its Base64 part is the share's encoding. -/
theorem hparse_humanText {share : List Byte} (hlen : 16 ≤ share.length) (hid : IdentOK share) (pad : Bool) :
    ∃ q0, hparse (humanText share (identLength share) pad) = .ok q0 ∧
      (humanText share (identLength share) pad).drop q0 = b64enc pad share := by
  have hk := identLength_le share
  have hident : ∀ x ∈ share.take (identLength share), inIdset x = true := fun x hx => by
    obtain ⟨j, hj, rfl⟩ := List.getElem_of_mem hx
    rw [List.getElem_take, ← List.getD_eq_getElem share 0]
    exact hid j (by rw [List.length_take] at hj; omega)
  obtain ⟨hp, -⟩ := canonical_sextets share pad
  obtain ⟨h1, h3⟩ := length_decimal (share.getD 17 0)
  refine ⟨_, (humanPatternAcceptsExactlyTheGrammar _ _).mpr ⟨share.take (identLength share), decimal (share.getD 17 0),
    (sextets share).map b64Char, _, ?text, (List.length_take_le ..).trans hk, hident, h1, h3, fun x => decimal_range,
    ?body, fun x => isB64_of_mem_map, hp, rfl⟩, ?drop⟩
  case text => rw [humanText, b64enc_eq, ← List.append_assoc]; rfl
  case body => rw [List.length_map, length_sextets]; omega
  case drop =>
    rw [humanText]
    refine List.drop_left' ?_
    simp only [humanPrefix, List.length_append, List.length_cons, List.length_nil]

/-- A length inside LMEM is a number of a register. -/
theorem lt_of_inLmem {addr : Word} {n : Nat} (h : InLmem addr n) : n < 2 ^ 32 := by
  have hsize : Config.lmemSize = 1048576 := rfl
  omega

/-- Settles O50: HDEC parses the text that HENC stored, and decodes what HENC encoded. -/
theorem hdecOfHencGivesTheShare : Obligations.HdecOfHencGivesTheShare := by
  intro s t u d a b c d' a' b' c' nopad _ ht hok ha' hb' hheld hd'
  obtain ⟨hn, hs, hid⟩ := henc_checks ht hok
  have hlen := length_readBytes s (readReg s a).toNat (readReg s b).toNat
  have hexec := exec_henc_of_identOK d c nopad hn hs hid
  generalize readBytes s (readReg s a).toNat (readReg s b).toNat = share at *
  obtain ⟨q0, hparse, hdrop⟩ := hparse_humanText (by omega) hid (!nopad)
  generalize humanText share (identLength share) (!nopad) = text at *
  have hdst : InLmem (readReg s d) text.length := not_not.mp fun hdst =>
    not_raises_of_completed ht hok _ _ (raises_of_storeResult hexec hdst)
  have hcompletes := completes_of_storeResult hexec hdst
  have hc : (readReg t c).toNat = text.length := by
    obtain ⟨v, hv, hwrites, -⟩ := hcompletes
    cases hv.symm.trans ht
    rw [hwrites (c, _) (List.mem_singleton.mpr rfl), BitVec.toNat_ofNat, Nat.mod_eq_of_lt (lt_of_inLmem hdst)]
  have hread : readBytes u (readReg u a').toNat (readReg u b').toNat = text := by
    rw [ha', hb', hc]
    exact readBytes_of_stored (stored_of_completes hcompletes ht) fun k hk => hheld k (hc ▸ hk)
  have hout := exec_hdec_of_ok (s := u) (a := a') (b := b') (q0 := q0) d' c' (by rw [ha', hb', hc]; exact hdst)
    (by rw [hread]; exact hparse) (by rw [hread, hdrop, b64dec_b64enc])
  have hb : BitVec.ofNat 32 share.length = readReg s b := by rw [hlen, BitVec.ofNat_toNat, BitVec.setWidth_eq]
  rw [← hb]
  exact completes_of_storeResult hout (hlen.symm ▸ hd')

end Sys2Proof.Proofs
end

section
/-! The host's reads and writes register by register (10_state.md R29 to R43), while the engine is idle and while it runs
(R32), and what a reset leaves (R44, R311). -/

namespace Sys2Proof.Proofs

open Sys2Proof.Machine Sys2Proof.Statements Sys2Proof.Laws

/-! ## STATUS and IRQEN as sums of their bits -/

/-- A bit below a word doubles the word and adds the bit. -/
theorem toNat_append_ofBool {n : Nat} (x : BitVec n) (b : Bool) :
    (x ++ BitVec.ofBool b).toNat = 2 * x.toNat + bit b := by
  rw [BitVec.toNat_append, ← Nat.shiftLeft_add_eq_or_of_lt (BitVec.isLt _), Nat.shiftLeft_eq, Nat.mul_comm]
  cases b <;> rfl

theorem toNat_statusWord (s : State) : (statusWord s).toNat =
    256 * (errCodeByte s.errCode).toNat + 8 * bit s.hacc + 4 * bit s.err + 2 * bit s.done + bit s.busy := by
  have hhigh : (0#16 ++ errCodeByte s.errCode ++ 0#4).toNat = 16 * (errCodeByte s.errCode).toNat := by
    simp only [BitVec.toNat_append, BitVec.toNat_zero, Nat.or_zero, Nat.shiftLeft_eq, Nat.zero_mul, Nat.zero_or]
    omega
  simp only [statusWord, toNat_append_ofBool, hhigh]
  omega

theorem toNat_irqenWord (s : State) :
    (irqenWord s).toNat = 8 * bit s.haccIE + 4 * bit s.errIE + 2 * bit s.doneIE := by
  have hlow (x : BitVec 31) : (x ++ 0#1).toNat = 2 * x.toNat := (toNat_append_ofBool x false).trans (Nat.add_zero _)
  simp only [irqenWord, hlow, toNat_append_ofBool, BitVec.toNat_zero]
  omega

theorem statusWord_eq_statusSum (s : State) : statusWord s = statusSum s := by
  rw [statusSum, ← toNat_statusWord, BitVec.ofNat_toNat, BitVec.setWidth_eq]

theorem irqenWord_eq_irqenSum (s : State) : irqenWord s = irqenSum s := by
  rw [irqenSum, ← toNat_irqenWord, BitVec.ofNat_toNat, BitVec.setWidth_eq]

/-! ## Reads -/

section
variable {s : State} {t : Target}

/-- A read whose value is specified gives it. -/
theorem readGives_of_not_free {acc : Access} (ht : busTarget acc.offset.toNat acc.width = some t) (ho : acc.op = .read)
    (hf : (s.busy && readsFreeWhenBusy t) = false) :
    ReadGives acc s (readTarget s acc.width (Config.freeWord s.freeDraws) t) :=
  hostAccess_read ht ho hf

/-- A register whose value R32 leaves specified while BUSY = 1 reads so at any time. -/
theorem readGives_regRead {off : Nat} (ht : busTarget (BitVec.ofNat 21 off).toNat .word = some t)
    (hf : readsFreeWhenBusy t = false) : ReadGives (regRead off) s (readTarget s .word (Config.freeWord s.freeDraws) t) :=
  readGives_of_not_free ht rfl (by rw [hf, Bool.and_false])

/-- While the engine is idle every read gives its value. -/
theorem readGives_of_idle {acc : Access} (hb : s.busy = false) (ht : busTarget acc.offset.toNat acc.width = some t)
    (ho : acc.op = .read) : ReadGives acc s (readTarget s acc.width (Config.freeWord s.freeDraws) t) :=
  readGives_of_not_free ht ho (by rw [hb, Bool.false_and])

/-- While the engine is idle every register reads its value. -/
theorem readGives_regRead_of_idle {off : Nat} (hb : s.busy = false)
    (ht : busTarget (BitVec.ofNat 21 off).toNat .word = some t) :
    ReadGives (regRead off) s (readTarget s .word (Config.freeWord s.freeDraws) t) :=
  readGives_of_idle hb ht rfl

/-- While the engine runs, the read of a free target gives some word. -/
theorem exists_readGives_of_free {acc : Access} (hb : s.busy = true) (hf : readsFreeWhenBusy t = true)
    (ht : busTarget acc.offset.toNat acc.width = some t) (ho : acc.op = .read) : ∃ x, ReadGives acc s x :=
  ⟨_, hostAccess_read_free ht ho (by rw [hb, hf]; rfl)⟩

end

theorem readGives_status (s : State) : ReadGives (regRead 0x008) s (statusSum s) := by
  rw [← statusWord_eq_statusSum]
  exact readGives_regRead busTarget_status rfl

theorem busTarget_irqen : busTarget (BitVec.ofNat 21 0x00C).toNat .word = some .irqen := by decide
theorem busTarget_pc : busTarget (BitVec.ofNat 21 0x010).toNat .word = some .pc := by decide
theorem busTarget_cmdCnt : busTarget (BitVec.ofNat 21 0x01C).toNat .word = some .cmdCnt := by decide
theorem busTarget_id : busTarget (BitVec.ofNat 21 0x000).toNat .word = some .id := by decide
theorem busTarget_errPC : busTarget (BitVec.ofNat 21 0x014).toNat .word = some .errPC := by decide
theorem busTarget_errInfo : busTarget (BitVec.ofNat 21 0x018).toNat .word = some .errInfo := by decide
theorem busTarget_lmemSz : busTarget (BitVec.ofNat 21 0x020).toNat .word = some .lmemSz := by decide

theorem readGives_irqen (s : State) : ReadGives (regRead 0x00C) s (irqenSum s) := by
  rw [← irqenWord_eq_irqenSum]
  exact readGives_regRead busTarget_irqen rfl

/-- Settles O55: the targets whose value is specified at any time, and those that an idle engine leaves to the host. -/
theorem hostReadsTheRegisters : Obligations.HostReadsTheRegisters := by
  intro s
  refine ⟨readGives_regRead busTarget_id rfl, readGives_regRead busTarget_ctrl rfl, readGives_status s,
    readGives_irqen s, readGives_regRead busTarget_errPC rfl, readGives_regRead busTarget_errInfo rfl,
    readGives_regRead busTarget_lmemSz rfl, fun hb => ⟨readGives_regRead_of_idle hb busTarget_pc,
    readGives_regRead_of_idle hb busTarget_cmdCnt, fun k => ?gpr, fun a w ha hw => ?window⟩⟩
  case gpr => exact readGives_regRead_of_idle (t := .gpr k) hb (busTarget_gpr k)
  case window =>
    exact ⟨_, readGives_of_idle hb (busTarget_window ha hw) rfl, fun k hk => extractLsb'_windowLanes hk s a _⟩

/-! ## Writes -/

/-- A write that is dropped sets HACC and changes nothing else. -/
theorem hostAccess_of_drops {s : State} {acc : Access} {t : Target} {v : Word} (hb : s.busy = true)
    (hd : dropsWhenBusy t = true) (ht : busTarget acc.offset.toNat acc.width = some t) (ho : acc.op = .write v) :
    hostAccess acc s = { s with hacc := true, response := .written } :=
  hostAccess_write_dropped ht ho (by rw [hb, hd]; rfl)

/-- While the engine is idle every write takes effect. -/
theorem hostAccess_regWrite_of_idle {s : State} {off : Nat} {t : Target} (hb : s.busy = false)
    (ht : busTarget (BitVec.ofNat 21 off).toNat .word = some t) (v : Word) :
    hostAccess (regWrite off v) s = respond .written (writeTarget t .word v s) :=
  hostAccess_write ht rfl (by rw [hb, Bool.false_and])

/-- STATUS bit 0 is BUSY (R35). -/
theorem getLsbD_statusSum_zero (s : State) : (statusSum s).getLsbD 0 = s.busy := by
  rw [← statusWord_eq_statusSum, statusWord, BitVec.getLsbD_append]
  cases s.busy <;> rfl

/-- Settles O52: each target is dropped, free, or works as ever, and a CTRL write sets both of its requests. -/
theorem hostAccessesWhileBusy : Obligations.HostAccessesWhileBusy := by
  intro s v hb
  refine ⟨hostAccess_of_drops hb rfl busTarget_pc rfl, fun k => hostAccess_of_drops hb rfl (busTarget_gpr k) rfl,
    fun a w ha hw => hostAccess_of_drops hb rfl (busTarget_window ha hw) rfl, fun hv => ?start, fun acc hacc => ?free,
    readGives_regRead busTarget_id rfl, readGives_status s, (getLsbD_statusSum_zero s).trans hb, readGives_irqen s,
    readGives_regRead busTarget_errPC rfl, readGives_regRead busTarget_errInfo rfl, readGives_regRead busTarget_lmemSz rfl,
    hostAccess_regWrite_of_not_drops busTarget_status rfl s v, hostAccess_regWrite_of_not_drops busTarget_irqen rfl s v⟩
  case start =>
    rw [hostAccess_regWrite_ctrl, writeCtrl_of_busy hb, hv, Bool.or_true, respond]
  case free =>
    obtain rfl | rfl | ⟨k, rfl⟩ | ⟨a, w, ha, hw, rfl⟩ := hacc
    · exact exists_readGives_of_free hb rfl busTarget_pc rfl
    · exact exists_readGives_of_free hb rfl busTarget_cmdCnt rfl
    · exact exists_readGives_of_free hb rfl (busTarget_gpr k) rfl
    · exact exists_readGives_of_free hb rfl (busTarget_window ha hw) rfl

/-- Settles O56: an idle engine's write is the update of its target. -/
theorem idleHostWritesTheRegisters : Obligations.IdleHostWritesTheRegisters := by
  intro s v hb
  have hirqen := hostAccess_regWrite_of_idle hb busTarget_irqen v
  refine ⟨hostAccess_regWrite_of_idle hb busTarget_pc v, hirqen, ?readback, ?readonly, fun k => ?gpr⟩
  case readback =>
    rw [hirqen, and_sourceMask]
    exact irqenWord_eq_sourceWord _
  case readonly =>
    simp only [List.forall_mem_cons]
    exact ⟨hostAccess_regWrite_of_idle hb busTarget_id v, hostAccess_regWrite_of_idle hb busTarget_errPC v,
      hostAccess_regWrite_of_idle hb busTarget_errInfo v, hostAccess_regWrite_of_idle hb busTarget_cmdCnt v,
      hostAccess_regWrite_of_idle hb busTarget_lmemSz v, nofun⟩
  case gpr => exact ⟨_, hostAccess_regWrite_of_idle hb (busTarget_gpr k) v, rfl, fun r => readReg_setReg s k r v⟩

/-! ## Reset -/

/-- What reset leaves in the registers, flags and counters (R44). -/
def Cleared (t : State) : Prop :=
  (∀ r, readReg t r = 0) ∧ t.pc = 0 ∧ t.busy = false ∧ t.abortReq = false ∧ t.done = false ∧ t.err = false ∧
    t.hacc = false ∧ errCodeByte t.errCode = 0x00 ∧ irqenWord t = 0 ∧ t.errPC = 0 ∧ t.errInfo = 0 ∧ t.cmdCnt = 0 ∧
    irq t = false

theorem cleared_reset : Cleared State.reset :=
  ⟨by decide, rfl, rfl, rfl, rfl, rfl, rfl, rfl, rfl, rfl, rfl, rfl, rfl⟩

theorem cleared_resetInput (s : State) : Cleared (resetInput s) := cleared_reset

theorem cleared_powerOn (s : State) : Cleared (powerOn s) := cleared_reset

/-- An address that nothing has written holds the free byte of the current draw (log entry 1). -/
theorem byteAt_of_unwritten {s : State} (h : s.lmem = []) (a : Nat) : byteAt s a = Config.unwrittenByte s.lmemDraw a := by
  rw [byteAt, h]; rfl

/-- Settles O59: the three resets clear the same fields, and differ in what they leave in LMEM. -/
theorem resetLeavesTheTableValues : Obligations.ResetLeavesTheTableValues := by
  intro s rest cleared
  refine ⟨cleared_reset, byteAt_of_unwritten rfl, fun hs => ?reset, fun hs => ?powerOn⟩
  case reset =>
    refine ⟨resetInput { s with turns := rest }, by rw [step, hs], cleared_resetInput _, rfl, fun hb a => ?_,
      fun hb a => ?_⟩
    · simp only [byteAt, resetInput, hb, Bool.false_eq_true, if_false]
    · simp only [byteAt, resetInput, hb, if_true, Memory.lookup, Option.getD_none]
  case powerOn =>
    exact ⟨powerOn { s with turns := rest }, by rw [step, hs], cleared_powerOn _, rfl, byteAt_of_unwritten rfl⟩

end Sys2Proof.Proofs
end

section
/-! The boot sequence (70_reset_and_hazards.md R314): what a sequence of host turns does to the machine behind the port,
turn by turn, and what the whole sequence leaves. -/

namespace Sys2Proof.Proofs

open Sys2Proof.Machine Sys2Proof.Statements Sys2Proof.Laws

/-! ## The machine behind the port -/

theorem run_add {M : Host.Core} {m : Nat} {s t : M.State} (h : M.run m s = .next t) (n : Nat) :
    M.run (m + n) s = M.run n t := by
  induction m generalizing s with
  | zero =>
    rw [Nat.zero_add]
    cases h
    rfl
  | succ m ih =>
    rw [Nat.add_right_comm, Host.Core.run]
    rw [Host.Core.run] at h
    cases hs : M.step s <;> rw [hs] at h
    case next u => exact ih h
    all_goals cases h

/-- The state with the port's own fields set: the turns to come, the last response and the draws made. -/
def withPort (s : State) (ts : List Turn) (q : Response) (n : Nat) : State :=
  { s with turns := ts, response := q, freeDraws := n }

/-- The turns ts take the machine from s to t, whatever comes after them; the port's own fields are left open. -/
def Loads (ts : List Turn) (s t : State) : Prop :=
  ∀ rest q n, ∃ q' n', Sys2Proof.core.run ts.length (withPort s (ts ++ rest) q n) = .next (withPort t rest q' n')

theorem loads_nil (s : State) : Loads [] s s := fun _ q n => ⟨q, n, rfl⟩

theorem loads_append {ts us : List Turn} {s t u : State} (h : Loads ts s t) (h' : Loads us t u) :
    Loads (ts ++ us) s u := by
  intro rest q n
  obtain ⟨q', n', hts⟩ := h (us ++ rest) q n
  obtain ⟨q'', n'', hus⟩ := h' rest q' n'
  exact ⟨q'', n'', by rw [List.length_append, List.append_assoc, run_add hts, hus]⟩

theorem loads_cons {x : Turn} {ts : List Turn} {s t u : State} (h : Loads [x] s t) (h' : Loads ts t u) :
    Loads (x :: ts) s u := loads_append h h'

/-- No write looks at the port's own fields. -/
theorem writeTarget_withPort (t : Target) (w : Width) (v : Word) (s : State) (ts : List Turn) (q : Response) (n : Nat) :
    writeTarget t w v (withPort s ts q n) = withPort (writeTarget t w v s) ts q n := by
  cases t
  case ctrl =>
    rw [writeTarget, writeTarget]
    cases hb : s.busy with
    | true =>
      rw [writeCtrl_of_busy (s := withPort s ts q n) hb, writeCtrl_of_busy hb]
      rfl
    | false =>
      cases hv : v.getLsbD 0 with
      | true =>
        rw [writeCtrl_of_idle_of_start (s := withPort s ts q n) hb hv, writeCtrl_of_idle_of_start hb hv]
        rfl
      | false => rw [writeCtrl_of_idle_of_not_start (s := withPort s ts q n) hb hv, writeCtrl_of_idle_of_not_start hb hv]
  all_goals rfl

section
variable {acc : Access} {t : Target} (ht : busTarget acc.offset.toNat acc.width = some t) (s : State)
include ht

/-- A read leaves the machine as it is. -/
theorem loads_read (ho : acc.op = .read) : Loads [.host acc] s s := fun rest q n => by
  cases hf : s.busy && readsFreeWhenBusy t with
  | true => exact ⟨_, _, congrArg Host.Outcome.next (hostAccess_read_free (s := withPort s rest q n) ht ho hf)⟩
  | false => exact ⟨_, _, congrArg Host.Outcome.next (hostAccess_read (s := withPort s rest q n) ht ho hf)⟩

/-- A write that is not dropped updates its target. -/
theorem loads_write {v : Word} (ho : acc.op = .write v) (hd : (s.busy && dropsWhenBusy t) = false) :
    Loads [.host acc] s (writeTarget t acc.width v s) := fun rest q n => by
  have hacc : hostAccess acc (withPort s rest q n) = respond .written (writeTarget t acc.width v (withPort s rest q n)) :=
    hostAccess_write ht ho hd
  rw [writeTarget_withPort] at hacc
  exact ⟨.written, n, congrArg Host.Outcome.next hacc⟩

end

/-- A register write that is not dropped updates the register. -/
theorem loads_writeTurn {off : Nat} {t : Target} (ht : busTarget (BitVec.ofNat 21 off).toNat .word = some t) (s : State)
    (v : Word) (hd : (s.busy && dropsWhenBusy t) = false) : Loads [writeTurn off v] s (writeTarget t .word v s) :=
  loads_write ht s rfl hd

/-- An idle engine's window write stores the lanes below the width. -/
theorem loads_windowWrite {s : State} {a : Nat} {w : Width} (hb : s.busy = false) (ha : a < Config.lmemSize)
    (hw : a % widthBytes w = 0) (v : Word) :
    Loads [.host (windowWrite a w v)] s (writeBytes s a ((bytesLE v).take (widthBytes w))) :=
  loads_write (acc := windowWrite a w v) (busTarget_window ha hw) s rfl (by rw [hb, Bool.false_and])

/-! ## The stages of R314 -/

theorem writeBytes_append (s : State) (a : Nat) (bs cs : List Byte) :
    writeBytes s a (bs ++ cs) = writeBytes (writeBytes s a bs) (a + bs.length) cs := by
  suffices h : ∀ m : Memory, m.writeBytes a (bs ++ cs) = (m.writeBytes a bs).writeBytes (a + bs.length) cs from
    congrArg (fun m => { s with lmem := m }) (h s.lmem)
  induction bs generalizing a with
  | nil => exact fun m => rfl
  | cons b bs ih =>
    intro m
    rw [List.cons_append, Memory.writeBytes, ih, List.length_cons, Memory.writeBytes, Nat.add_right_comm, Nat.add_assoc]

/-- R314 step 2: the words are stored one after another. -/
theorem loads_loadWords {s : State} {a : Nat} {ws : List Word} (hb : s.busy = false) (h4 : a % 4 = 0)
    (hin : a + 4 * ws.length ≤ Config.lmemSize) : Loads (loadWords a ws) s (writeBytes s a (ws.flatMap bytesLE)) := by
  induction ws generalizing a s with
  | nil => exact loads_nil s
  | cons w ws ih =>
    rw [List.length_cons] at hin
    rw [List.flatMap_cons, writeBytes_append]
    have hstore : Loads [writeTurn (windowBase + a) w] s (writeBytes s a (bytesLE w)) :=
      loads_windowWrite (w := .word) hb (by omega) h4 w
    exact loads_cons hstore (ih hb ((Nat.add_mod_right a 4).trans h4) (by omega))

/-- The low byte of a byte on the bus is the byte. -/
theorem extractLsb'_setWidth_byte (b : Byte) : (b.setWidth 32).extractLsb' 0 8 = b := by
  ext i hi
  rw [BitVec.getElem_extractLsb', Nat.zero_add, BitVec.getLsbD_setWidth, BitVec.getLsbD_eq_getElem hi,
    decide_eq_true (hi.trans (by decide)), Bool.true_and]

/-- R314 step 3: the bytes are stored one after another. -/
theorem loads_loadBytes {s : State} {a : Nat} {bs : List Byte} (hb : s.busy = false)
    (hin : a + bs.length ≤ Config.lmemSize) : Loads (loadBytes a bs) s (writeBytes s a bs) := by
  induction bs generalizing a s with
  | nil => exact loads_nil s
  | cons b bs ih =>
    rw [List.length_cons] at hin
    have hlow : (bytesLE (b.setWidth 32)).take 1 = [b] :=
      congrArg (fun b => [b]) (extractLsb'_setWidth_byte b)
    have hstore : Loads [.host (windowWrite a .byte (b.setWidth 32))] s (writeBytes s a [b]) :=
      hlow ▸ loads_windowWrite (w := .byte) hb (by omega) (Nat.mod_one a) (b.setWidth 32)
    rw [← List.singleton_append, writeBytes_append]
    exact loads_cons hstore (ih hb (Nat.add_right_comm a 1 _ ▸ hin))

/-- R314 step 4: the registers take their values, in the list's order. -/
theorem loads_loadRegs {s : State} (hb : s.busy = false) (rs : List (Reg × Word)) :
    Loads (loadRegs rs) s (setRegs s rs) := by
  induction rs generalizing s with
  | nil => exact loads_nil s
  | cons rv rs ih =>
    exact loads_cons (loads_writeTurn (busTarget_gpr rv.1) s rv.2 (by rw [hb, Bool.false_and])) (ih hb)

/-- The state with the image's commands and data in LMEM. -/
def imageStored (img : BootImage) (s : State) : State :=
  writeBytes (writeBytes s img.codeAddr (img.code.flatMap bytesLE)) img.dataAddr img.data

/-- The state with the entry and the registers of the image loaded as well. -/
def imageLoaded (img : BootImage) (s : State) : State :=
  setRegs { imageStored img s with pc := img.entry } img.regs

/-- What the boot sequence leaves of an idle state. -/
def booted (img : BootImage) (s : State) : State :=
  start (writeIrqen img.irqen (writeStatus 0x0000000E (imageLoaded img s)))

theorem imageLoaded_eq (img : BootImage) (s : State) :
    imageLoaded img s = { imageStored img s with pc := img.entry, regs := (imageLoaded img s).regs } := setRegs_eq _ _

theorem loads_bootTurns {s : State} {img : BootImage} (hb : s.busy = false) (h4 : img.codeAddr % 4 = 0)
    (hcode : img.codeAddr + 4 * img.code.length ≤ Config.lmemSize)
    (hdata : img.dataAddr + img.data.length ≤ Config.lmemSize) : Loads (bootTurns img) s (booted img s) := by
  have hidle : (writeIrqen img.irqen (writeStatus 0x0000000E (imageLoaded img s))).busy = false := by
    rw [imageLoaded_eq]
    exact hb
  have hread : Loads [readTurn 0x000, readTurn 0x020] s s :=
    loads_cons (loads_read busTarget_id s rfl) (loads_read busTarget_lmemSz s rfl)
  have hpc := loads_writeTurn busTarget_pc (imageStored img s) img.entry
    (Bool.and_eq_false_imp.mpr fun h => nomatch hb.symm.trans h)
  have hregs := loads_loadRegs (s := { imageStored img s with pc := img.entry }) hb img.regs
  have hstatus := loads_writeTurn busTarget_status (imageLoaded img s) 0x0000000E (Bool.and_false _)
  have hirqen := loads_writeTurn busTarget_irqen (writeStatus 0x0000000E (imageLoaded img s)) img.irqen (Bool.and_false _)
  have hstart := loads_writeTurn busTarget_ctrl (writeIrqen img.irqen (writeStatus 0x0000000E (imageLoaded img s)))
    0x00000001 (Bool.and_false _)
  rw [writeTarget, writeCtrl_of_idle_of_start hidle rfl] at hstart
  exact loads_append (loads_append (loads_append (loads_append (loads_append (loads_append hread
    (loads_loadWords hb h4 hcode)) (loads_loadBytes hb hdata)) hpc) hregs)
    (loads_cons hstatus hirqen)) hstart

/-! ## What the boot leaves -/

/-- Byte j of word k of a loaded stream is byte j of the word. -/
theorem getElem?_flatMap_bytesLE {ws : List Word} {k j : Nat} (hk : k < ws.length) (hj : j < 4) :
    (ws.flatMap bytesLE)[4 * k + j]? = some ((ws.getD k 0).extractLsb' (8 * j) 8) := by
  induction ws generalizing k with
  | nil => cases hk
  | cons w ws ih =>
    rw [List.flatMap_cons]
    cases k with
    | zero =>
      rw [Nat.mul_zero, Nat.zero_add, List.getElem?_append_left (by rwa [length_bytesLE]),
        List.getElem?_eq_getElem (by rwa [length_bytesLE]), getElem_bytesLE, List.getD_cons_zero]
    | succ k =>
      have hoff : 4 * (k + 1) + j - (bytesLE w).length = 4 * k + j := by rw [length_bytesLE]; omega
      rw [List.getElem?_append_right (by rw [length_bytesLE]; omega), hoff, ih (Nat.lt_of_succ_lt_succ hk),
        List.getD_cons_succ]

theorem length_flatMap_bytesLE (ws : List Word) : (ws.flatMap bytesLE).length = 4 * ws.length := by
  simp only [List.length_flatMap, length_bytesLE, List.map_const', List.sum_replicate, smul_eq_mul, Nat.mul_comm]

theorem byteAt_booted (img : BootImage) (s : State) (x : Nat) :
    byteAt (booted img s) x = byteAt (imageStored img s) x := by
  rw [booted, imageLoaded_eq]; rfl

/-- The commands loaded are the words that stand there, if the data lies apart. -/
theorem wordAt_booted {img : BootImage} (s : State) {k : Nat} (hk : k < img.code.length)
    (hapart : img.codeAddr + 4 * img.code.length ≤ img.dataAddr ∨ img.dataAddr + img.data.length ≤ img.codeAddr) :
    wordAt (booted img s) (img.codeAddr + 4 * k) = img.code.getD k 0 := by
  refine wordAt_eq_of_bytes fun j hj => ?_
  have hlt : 4 * k + j < (img.code.flatMap bytesLE).length := by rw [length_flatMap_bytesLE]; omega
  rw [byteAt_booted, imageStored, byteAt_writeBytes_outside (by omega), Nat.add_assoc, byteAt_writeBytes_inside hlt]
  exact Option.some.inj ((List.getElem?_eq_getElem hlt).symm.trans (getElem?_flatMap_bytesLE hk hj))

theorem readBytes_booted (img : BootImage) (s : State) :
    readBytes (booted img s) img.dataAddr img.data.length = img.data :=
  readBytes_of_bytes fun k hk => by rw [byteAt_booted, imageStored, byteAt_writeBytes_inside hk]

/-- Settles O60: the turns of R314 take an idle machine to the booted one, and each stage leaves what it loaded. -/
theorem bootLoadsAndStarts : Obligations.BootLoadsAndStarts := by
  intro s img rest hb hs h4 hcode hdata hapart hnd
  obtain ⟨q, n, hrun⟩ := loads_bootTurns hb h4 hcode hdata rest s.response s.freeDraws
  have hport : withPort s (bootTurns img ++ rest) s.response s.freeDraws = s := by rw [← hs]; rfl
  rw [hport] at hrun
  have hbooted : (booted img s).hacc = false ∧ (booted img s).pc = img.entry := by
    rw [booted, imageLoaded_eq]
    exact ⟨Bool.and_false _, rfl⟩
  obtain ⟨hhacc, hpc⟩ := hbooted
  exact ⟨_, hrun, rfl, rfl, rfl, rfl, hhacc, rfl, rfl, hpc, fun k hk => wordAt_booted s hk hapart,
    readBytes_booted img s, fun rv hrv => readReg_setRegs_of_mem hnd hrv _, (and_sourceMask img.irqen).symm⟩

end Sys2Proof.Proofs
end
